-- ==== Sys2Proof/Word.lean ====
section
/-! DEFINITION. The word types of DLFO-CORE, one name per width the spec uses (10_state.md R20, 30_encoding.md R70 to
R74 and R81). Every value of the block is unsigned (00_scope.md section 5), so plain bit vectors carry them all. -/

namespace Sys2Proof

/-- A 32-bit Q16.16 register value: PHASE, PDELTA, STAGE (R70). -/
abbrev Word := BitVec 32

/-- One lane of a 32-bit register, `BUS_W = 8` bits wide (R5, R54), and one wavetable sample (R71). -/
abbrev Byte := BitVec 8

/-- A raw analog reading as the 16-bit port and the register RAW carry it (R74); also a wavetable index as the
16-bit port `wt_idx` carries it (R51). -/
abbrev Half := BitVec 16

/-- A DAC code (R72). -/
abbrev Code := BitVec 12

/-- An operation word (R81). -/
abbrev OpWord := BitVec 6

/-- A lane number `k` in `0 .. 3` (R83). -/
abbrev Lane := BitVec 2

/-- A foreground lane address `0 .. 7` (R54). -/
abbrev LaneAddr := BitVec 3

/-- A code of the foreground sequencer's state FGS (R30). -/
abbrev FgCode := BitVec 5

end Sys2Proof
end

