-- ==== Sys2Proof/Config.lean ====
section
/-! DEFINITION. The static parameters of the block (00_scope.md R5), their default values (R7), and the values the
spec leaves to the environment or leaves open, each an opaque constant about which nothing can be proved. -/

namespace Sys2Proof

/-- The static parameters (00_scope.md R5). `BUS_W` is the width of `Byte`. A configuration need not be
well-formed as data; `Config.wf` (WellFormed.lean) is the check of R6. -/
structure Config where
  /-- `N`, the number of wavetable entries. -/
  N : Nat
  /-- `WAVE`, the wavetable: the samples that are named, in index order from entry 0. An entry below `N` that the list
  does not reach is a free value, and an entry named at `N` or above is never read (log 2). -/
  wave : List Byte
  /-- `TIMER_RATE`, timer firings per second; it enters the block only as MAP's divisor (R193). -/
  timerRate : Nat
  /-- `SCALE`, the per-unit frequency scale factor. -/
  scale : Nat
  /-- `ADC_MAX`, the largest raw reading. -/
  adcMax : Nat
  /-- `DUAL`: true for dual-channel quadrature output, false for channel A alone. -/
  dual : Bool
  /-- `FG_GUARD`: true in a conforming block; false is the variant of R164, kept to exhibit the hazard. -/
  fgGuard : Bool
deriving DecidableEq, Repr

/-- What the environment does at the next step (60_exceptions.md R183, R194; 70_reset_and_hazards.md R210). -/
inductive Turn where
  /-- No environment event: the block performs its next operation. -/
  | run
  /-- `tick_ev`: one firing of the timer, the environment step TEV (R183). -/
  | timer
  /-- `rst_n = 0`: the block performs no operation and its state is the reset state (R210). -/
  | blockReset
deriving DecidableEq, Repr, Inhabited

namespace Config

/-- FREE VALUE: the environment's turn at free draw `n`, where the state lists none (R200; log 4). -/
opaque freeTurn : Nat → Turn

/-- FREE VALUE: the natural from which the reading of free draw `n` is made, where the state lists none (R132;
log 4). -/
opaque freeReading : Nat → Nat

/-- FREE VALUE: the level of the reset line at free draw `n`, where the state lists none (R197; log 4). -/
opaque freeLevel : Nat → Bool

/-- FREE VALUE: entry `i` of the wavetable where the configuration names none; the spec leaves WAVE open (R5, D19;
log 2). -/
opaque freeWave : Nat → Byte

/-- FREE VALUE: what STAGE holds after a MAP whose exact quotient does not fit 32 bits; the spec's own bound WF5
rules this out for every reading in range, so it states no value there (R134; log 11). -/
opaque freeIncrement : Nat → Word

/-- The default configuration (R7), with the given wavetable. -/
def defaultWith (wave : List Byte) : Config where
  N := 256
  wave := wave
  timerRate := 11363
  scale := 12800
  adcMax := 1023
  dual := true
  fgGuard := true

/-- The default configuration (R7) with every entry of the wavetable open (D14, D19; log 2). -/
def default : Config := defaultWith []

end Config

end Sys2Proof
end

