-- ==== Sys2Proof/Syntax.lean ====
section
/-! DEFINITION. The ten operations (30_encoding.md R80), one constructor per row of the opcode table. -/

namespace Sys2Proof

/-- The block's operations. The only operand any of them carries is the lane number of STD and CLP (R83). -/
inductive Instr where
  /-- START: enable ticks after reset (R160). -/
  | start
  /-- SAMP: take one analog reading (R131). -/
  | samp
  /-- MAP: compute the increment of the reading (R134). -/
  | map
  /-- DI: enter a critical section (R162). -/
  | di
  /-- EI: leave a critical section (R163). -/
  | ei
  /-- STD k: store lane `k` of STAGE to lane `k` of PDELTA (R137). -/
  | std (k : Lane)
  /-- CLP k: store zero to lane `k` of PHASE (R152). -/
  | clp (k : Lane)
  /-- RSTS: sample the reset line (R150). -/
  | rsts
  /-- DLY: the fixed delay (R165). -/
  | dly
  /-- TICK: the engine's one operation (R100). -/
  | tick
deriving DecidableEq, Repr

end Sys2Proof
end

