-- ==== Sys2Proof/WellFormed.lean ====
section
/-! DEFINITION. What is well-formed: a configuration (00_scope.md R6), an operation word (30_encoding.md R82, R84) and
a program of operation words (93_implementation_defined.md U7). Every term of `Instr` is well-formed, because a lane
number is two bits wide and every value of it is legal (R82). -/

namespace Sys2Proof

namespace Config

/-- WF1: `1 <= N <= 65536`. -/
def wf1 (c : Config) : Bool := decide (1 ≤ c.N) && decide (c.N ≤ 65536)

/-- WF2: `TIMER_RATE >= 1`. -/
def wf2 (c : Config) : Bool := decide (1 ≤ c.timerRate)

/-- WF3: `SCALE >= 1`. -/
def wf3 (c : Config) : Bool := decide (1 ≤ c.scale)

/-- WF4: `1 <= ADC_MAX <= 65535`. -/
def wf4 (c : Config) : Bool := decide (1 ≤ c.adcMax) && decide (c.adcMax ≤ 65535)

/-- WF5: `N * ADC_MAX * SCALE <= 2^32 - 1`. -/
def wf5 (c : Config) : Bool := decide (c.N * c.adcMax * c.scale ≤ 4294967295)

/-- WF6: `N * SCALE >= TIMER_RATE`. -/
def wf6 (c : Config) : Bool := decide (c.timerRate ≤ c.N * c.scale)

/-- A well-formed configuration (R6). The block is defined for no other. WF7, that every `WAVE[i]` lies in `0 .. 255`,
is the type `Byte`. -/
def wf (c : Config) : Bool := c.wf1 && c.wf2 && c.wf3 && c.wf4 && c.wf5 && c.wf6

end Config

/-- The legal operation words: `opc` in 0b0000 to 0b1001 and, but for STD and CLP, `k = 0b00` (R82, R84). -/
def OpWord.legal (w : OpWord) : Bool :=
  decide (w.toNat / 4 ≤ 9) && (decide (w.toNat % 4 = 0) || decide (w.toNat / 4 = 5) || decide (w.toNat / 4 = 6))

/-- A program holds no reserved word (R84, U7). -/
def programLegal (p : List OpWord) : Bool := p.all OpWord.legal

end Sys2Proof
end

