-- ==== Sys2Proof/Machine/State.lean ====
section
/-! DEFINITION. The state of the machine (10_state.md R20, R32; 30_encoding.md R88), the reasons a step can stop, the
state after reset (10_state.md R35), and one setter per field that an operation writes. -/

namespace Sys2Proof.Machine

open Sys2Proof

/-- The channel of a DAC write (30_encoding.md R73). -/
inductive Channel where
  /-- Channel A, `dac_ch = 0`. -/
  | A
  /-- Channel B, `dac_ch = 1`. -/
  | B
deriving DecidableEq, Repr

/-- One DAC write, as it stands on the output trace (10_state.md R32). -/
structure DacWrite where
  /-- `dac_code`. -/
  code : Code
  /-- `dac_ch`. -/
  ch : Channel
deriving DecidableEq, Repr

/-- The environment's inputs: the MODEL's own part of State, not the spec's (log 4). Each list is read from its head;
where it is empty a free value of `Config`, indexed by `draws`, takes its place. -/
structure Env where
  /-- The environment's choices before the coming steps. -/
  turns : List Turn
  /-- The answers of `readRaw()` to the coming SAMPs (R196). -/
  readings : List Half
  /-- The levels of `rst_in` at the coming RSTS steps (R197). -/
  levels : List Bool
  /-- How many free values have been drawn. -/
  draws : Nat
deriving DecidableEq, Repr

/-- The state: the static parameters (log 1), the eight registers of R20, the observations of R32, R88 and R198, and
the environment's inputs. -/
structure State where
  /-- The static parameters (00_scope.md R5). No step writes them. -/
  cfg : Config
  /-- PHASE (R21). -/
  phase : Word
  /-- PDELTA (R22). -/
  pdelta : Word
  /-- STAGE (R24). -/
  stage : Word
  /-- RAW (R25). -/
  raw : Half
  /-- RSF (R27). -/
  rsf : Bool
  /-- TE (R28). -/
  te : Bool
  /-- TP (R29). -/
  tp : Bool
  /-- FGS (R30). Codes 17 to 31 name no state of the sequencer. -/
  fgs : FgCode
  /-- The output trace: every DAC write since reset, oldest first (R32; log 16). -/
  trace : List DacWrite
  /-- `op_id`: the word of the operation the last step performed; none where it was not driven (R88; log 14). -/
  opId : Option OpWord
  /-- `wt_idx`: the indices presented to the wavetable in the last step, oldest first (R51, R198; log 15). -/
  wtIdx : List Half
  /-- The environment's inputs (log 4). -/
  env : Env
deriving DecidableEq, Repr

/-- Why a step stops with a fault. Every one is a stop of the MODEL; the hardware raises no exception (R180). -/
inductive Fault where
  /-- Raised by a step whose FGS is 17 to 31: the spec calls such a state stuck (U8). Safe: it is unreachable from
  reset. -/
  | stuckSequencer
  /-- Raised by a wavetable read at an index `>= N`: the spec gives it no meaning and calls it stuck (R53, U3). Safe:
  TICK makes no such read in a well-formed configuration. -/
  | waveOutOfRange
  /-- Raised by a listed timer event while TP = 1: the overrun, taken as a model-level fault, the conservative one of
  the spec's two treatments (R184, U4; log 5). Safe: the hardware would go on. -/
  | timerOverrun
deriving DecidableEq, Repr

/-- Why a step is refused. -/
inductive Refusal where
  /-- Raised by an arm of exec whose instruction has no meaning yet. Safe: nothing is claimed about it. -/
  | notModelled (mnemonic : String)
  /-- Raised by every step and every operation of an ill-formed configuration: the spec says that a model refuses it
  (R6, R181, U1, U2). Safe: nothing is claimed about it. -/
  | illFormedConfig
  /-- Raised by SAMP where the listed reading is above ADC_MAX: the spec's treatment is to refuse the draw (U5, D23;
  log 6). Safe for that input: nothing is claimed about it. -/
  | readingOutOfRange
  /-- Raised by a step whose program word is reserved: the spec says that a model refuses such a program (R84, U7).
  Safe: the hardwired program holds none. -/
  | reservedWord (w : OpWord)
deriving DecidableEq, Repr

/-- What a step or a meaning answers. -/
abbrev Result := Host.Outcome State Fault Refusal

/-- No input listed and no free value drawn. -/
def Env.empty : Env where
  turns := []
  readings := []
  levels := []
  draws := 0

namespace State

/-- The state R35 gives, for a configuration and an environment. -/
def init (c : Config) (e : Env) : State where
  cfg := c
  phase := 0
  pdelta := 0
  stage := 0
  raw := 0
  rsf := false
  te := false
  tp := false
  fgs := 0
  trace := []
  opId := none
  wtIdx := []
  env := e

/-- The machine right after reset (R35, R210), in the default configuration (R7). -/
def reset : State := init Config.default Env.empty

/-- PHASE <- `v`. -/
def setPhase (s : State) (v : Word) : State := { s with phase := v }

/-- PDELTA <- `v`. -/
def setPdelta (s : State) (v : Word) : State := { s with pdelta := v }

/-- STAGE <- `v`. -/
def setStage (s : State) (v : Word) : State := { s with stage := v }

/-- RAW <- `v`. -/
def setRaw (s : State) (v : Half) : State := { s with raw := v }

/-- RSF <- `v`. -/
def setRsf (s : State) (v : Bool) : State := { s with rsf := v }

/-- TE <- `v`. -/
def setTe (s : State) (v : Bool) : State := { s with te := v }

/-- TP <- `v`. -/
def setTp (s : State) (v : Bool) : State := { s with tp := v }

/-- FGS <- `v`. -/
def setFgs (s : State) (v : FgCode) : State := { s with fgs := v }

/-- The output trace becomes `v`. -/
def setTrace (s : State) (v : List DacWrite) : State := { s with trace := v }

/-- `op_id` shows `v`. -/
def setOpId (s : State) (v : Option OpWord) : State := { s with opId := v }

/-- The indices presented on `wt_idx` become `v`. -/
def setWtIdx (s : State) (v : List Half) : State := { s with wtIdx := v }

/-- The environment's inputs become `v`. -/
def setEnv (s : State) (v : Env) : State := { s with env := v }

end State

end Sys2Proof.Machine
end

