-- ==== Sys2Proof/Machine/Operands.lean ====
section
/-! DEFINITION. The data formats and the values operations work on: Q16.16 fields and lanes (00_scope.md section 5,
30_encoding.md R70), lane addresses (R83), the DAC code (R72), the table indices (40_engine_tick.md R102 to R106) and
the frequency mapping (41_frequency_control.md R133, R134). -/

namespace Sys2Proof.Machine

open Sys2Proof

/-- `int(v) = v[31:16]` (R70). -/
def intPart (v : Word) : Half := v.extractLsb' 16 16

/-- `frac(v) = v[15:0]` (R70). -/
def fracPart (v : Word) : Half := v.extractLsb' 0 16

/-- `lane(v, k) = v[8k+7:8k]` (00_scope.md section 5; R55). -/
def lane (v : Word) (k : Lane) : Byte := v.extractLsb' (8 * k.toNat) 8

/-- `setlane(v, k, b)`: `v` with the bits `8k+7:8k` replaced by `b` (00_scope.md section 5). -/
def setlane (v : Word) (k : Lane) (b : Byte) : Word :=
  (v &&& ~~~(0xFF#32 <<< (8 * k.toNat))) ||| (b.setWidth 32 <<< (8 * k.toNat))

/-- STD k stores to lane address `k` (R83). -/
def stdAddr (k : Lane) : LaneAddr := k.setWidth 3

/-- CLP k stores to lane address `4 + k` (R83). -/
def clpAddr (k : Lane) : LaneAddr := 4 + k.setWidth 3

/-- A sample as a DAC code: `zext_12(sample) << 4` (R72). -/
def widen (b : Byte) : Code := b.setWidth 12 <<< 4

/-- The port's encoding of a channel: A = 0, B = 1 (R73). -/
def channelBit (ch : Channel) : BitVec 1 :=
  match ch with
  | .A => 0
  | .B => 1

/-- The quarter offset `Q = floor(N / 4)` (R76). -/
def quarter (c : Config) : Nat := c.N / 4

/-- The table-length wraparound of an index, policy (a): reduced modulo `N` if and only if it is `N` or more (R103). -/
def wrapIndex (c : Config) (idx : Nat) : Nat := if c.N ≤ idx then idx % c.N else idx

/-- PHASE after step 3 of TICK, from the sum `p` of step 1: the integer part is rewritten with the reduced index when
the index is `N` or more and the fraction is kept (R103). -/
def wrapPhase (c : Config) (p : Word) : Word :=
  if c.N ≤ (intPart p).toNat then BitVec.ofNat 16 (wrapIndex c (intPart p).toNat) ++ fracPart p else p

/-- The quadrature index, from the reduced index of channel A (R106). -/
def quadIndex (c : Config) (idx : Nat) : Nat := (idx + quarter c) % c.N

/-- The clamp `r' = max(RAW, 1)` (R133). -/
def clampReading (r : Nat) : Nat := max r 1

/-- The frequency word `F = max(RAW, 1) * SCALE` (R75). -/
def frequencyWord (c : Config) (r : Nat) : Nat := clampReading r * c.scale

/-- `fmap(r) = floor(N * max(r, 1) * SCALE / TIMER_RATE)` (R134). -/
def fmap (c : Config) (r : Nat) : Nat := c.N * frequencyWord c r / c.timerRate

/-- The value MAP gives STAGE: `fmap` of the reading as a 32-bit value. WF5 makes it fit for every reading in range;
where it does not fit the spec states no value and a free value stands there (R134; log 11). -/
def increment (c : Config) (r : Half) : Word :=
  if fmap c r.toNat < 4294967296 then BitVec.ofNat 32 (fmap c r.toNat) else Config.freeIncrement (fmap c r.toNat)

end Sys2Proof.Machine
end

