-- ==== Sys2Proof/Machine/Flags.lean ====
section
/-! DEFINITION. The three one-bit flags RSF, TE and TP (10_state.md R26 to R29): the block has no arithmetic condition
codes, so these writes are all the flag computations there are. -/

namespace Sys2Proof.Machine

open Sys2Proof

/-- START's write of TE: 1, whatever FG_GUARD is (43_sequencing.md R160). -/
def enableTicks (s : State) : State := s.setTe true

/-- DI's write of TE: 0 in a conforming block, none in the variant `FG_GUARD = 0` (R162, R164). There is no nesting
count. -/
def enterCritical (s : State) : State := if s.cfg.fgGuard then s.setTe false else s

/-- EI's write of TE: 1 in a conforming block, none in the variant `FG_GUARD = 0` (R163, R164). -/
def leaveCritical (s : State) : State := if s.cfg.fgGuard then s.setTe true else s

/-- RSTS's write of RSF: the level sampled (R150). -/
def latchLevel (v : Bool) (s : State) : State := s.setRsf v

/-- TEV's write of TP (60_exceptions.md R183). -/
def latchTick (s : State) : State := s.setTp true

/-- The dispatch condition of the tick: `TE = 1 and TP = 1` (60_exceptions.md R185). -/
def tickDue (s : State) : Bool := s.te && s.tp

end Sys2Proof.Machine
end

