-- ==== Sys2Proof/Machine/Ops.lean ====
section
/-! DEFINITION. The operations the meanings share: the refusal of an ill-formed configuration, the two address spaces
(20_memory.md R52, R56), the ports (60_exceptions.md R195 to R198), the sequencer's successor writes (43_sequencing.md
R170), and the service of the tick interrupt (60_exceptions.md R186, R187). -/

namespace Sys2Proof.Machine

open Sys2Proof

/-- `k` where the configuration is well-formed; a model refuses any other (00_scope.md R6). -/
def configured (s : State) (k : Result) : Result :=
  if s.cfg.wf then k else .refused .illFormedConfig

/-- Go on with the state an operation answered, or stop as it stopped. -/
def andThen (o : Result) (k : State → Result) : Result :=
  match o with
  | .next s => k s
  | .fault r => .fault r
  | .refused r => .refused r

/-- `WAVE[i]`: the sample the configuration names, or the free value of an entry it leaves open (R51, D19; log 2). -/
def waveAt (c : Config) (i : Nat) : Byte := (c.wave[i]?).getD (Config.freeWave i)

/-- `MemRead(i, 1)`: `WAVE[i]` for `i < N`; none, never a value, for `i >= N` (R52, R53, U3). -/
def memRead (c : Config) (i : Nat) : Option Byte := if i < c.N then some (waveAt c i) else none

/-- `MemWrite(a, 1, b)` to the lane space (R56). -/
def memWrite (a : LaneAddr) (b : Byte) (s : State) : State :=
  if a.toNat ≤ 3 then s.setPdelta (setlane s.pdelta (BitVec.ofNat 2 a.toNat) b)
  else s.setPhase (setlane s.phase (BitVec.ofNat 2 (a.toNat - 4)) b)

/-- The byte that the lane map R54 places at lane address `a`. No operation reads it; it is the model's observer of the
lane space, for statements about what a store leaves alone. -/
def laneAt (s : State) (a : LaneAddr) : Byte :=
  if a.toNat ≤ 3 then lane s.pdelta (BitVec.ofNat 2 a.toNat) else lane s.phase (BitVec.ofNat 2 (a.toNat - 4))

/-- `DacWrite(code, ch)`: append to the output trace (R195). The DAC is assumed never to block or refuse (R200; log 23). -/
def dacWrite (code : Code) (ch : Channel) (s : State) : State := s.setTrace (s.trace ++ [⟨code, ch⟩])

/-- Present index `i` on `wt_idx` (R198). -/
def presentIndex (i : Nat) (s : State) : State := s.setWtIdx (s.wtIdx ++ [BitVec.ofNat 16 i])

/-- Steps 4 and 5b of TICK: read the table at `i`, widen the sample, write it to channel `ch` (R105, R107). A read the
spec gives no meaning is stuck (R53). -/
def emitSample (i : Nat) (ch : Channel) (s : State) : Result :=
  match memRead s.cfg i with
  | some b => .next (dacWrite (widen b) ch (presentIndex i s))
  | none => .fault .waveOutOfRange

/-- The reading the environment answers with, and its inputs after that; none where the listed answer is above
ADC_MAX. A free reading is in `0 .. ADC_MAX` (R131, R196, U5; log 4, log 6). -/
def drawReading (c : Config) (e : Env) : Option (Half × Env) :=
  match e.readings with
  | r :: rs => if r.toNat ≤ c.adcMax then some (r, { e with readings := rs }) else none
  | [] => some (BitVec.ofNat 16 (Config.freeReading e.draws % (c.adcMax + 1)), { e with draws := e.draws + 1 })

/-- The level of the reset line the environment shows, and its inputs after that (R150, R197; log 4). -/
def drawLevel (e : Env) : Bool × Env :=
  match e.levels with
  | v :: vs => (v, { e with levels := vs })
  | [] => (Config.freeLevel e.draws, { e with draws := e.draws + 1 })

/-- `FGS <- FGS + 1`, in the five bits of FGS (R162, R163, R137, R152; log 10). -/
def advance (s : State) : State := s.setFgs (s.fgs + 1)

/-- `FGS <- f` (R170). -/
def goTo (f : FgCode) (s : State) : State := s.setFgs f

/-- Entry to the tick interrupt: nothing is saved, no mode changes, TE stays as it is (R186). The block raises no other
exception (R180). -/
def enterTick (s : State) : State := s

/-- End of the tick, which is its return: TP <- 0 and nothing is restored, because nothing was saved (R186, R187). -/
def leaveTick (s : State) : State := s.setTp false

end Sys2Proof.Machine
end

