-- ==== Sys2Proof/Machine/Engine.lean ====
section
/-! DEFINITION. The engine's operation TICK (40_engine_tick.md). -/

namespace Sys2Proof.Machine

open Sys2Proof

/-- Steps 1 to 3 of TICK: add, with the carry out of bit 31 discarded, and wrap at the table length (R101 to R103). -/
def advancePhase (s : State) : State := s.setPhase (wrapPhase s.cfg (s.phase + s.pdelta))

/-- The index of channel A: the integer part of the phase after step 3 (R102, R103). -/
def tickIndex (s : State) : Nat := (intPart s.phase).toNat

/-- Step 5 of TICK: channel B, in dual mode only (R106, R107, R109). -/
def emitQuadrature (idx : Nat) (s : State) : Result :=
  if s.cfg.dual then emitSample (quadIndex s.cfg idx) .B s else .next s

/-- TICK (R100). Whether a tick is taken is the dispatch's business (R185), not the operation's (log 20). -/
def execTick (s : State) : Result :=
  configured s <|
    let s₁ := advancePhase (enterTick s)
    andThen (emitSample (tickIndex s₁) .A s₁) fun s₂ =>
      andThen (emitQuadrature (tickIndex s₁) s₂) fun s₃ => .next (leaveTick s₃)

end Sys2Proof.Machine
end

