-- ==== Sys2Proof/Machine/Frequency.lean ====
section
/-! DEFINITION. The frequency control mapping: SAMP, MAP, STD k (41_frequency_control.md). -/

namespace Sys2Proof.Machine

open Sys2Proof

/-- SAMP (R131). -/
def execSamp (s : State) : Result :=
  configured s <|
    match drawReading s.cfg s.env with
    | some (r, e) => .next (goTo 2 ((s.setEnv e).setRaw r))
    | none => .refused .readingOutOfRange

/-- MAP (R134). -/
def execMap (s : State) : Result :=
  configured s <| .next (goTo 3 (s.setStage (increment s.cfg s.raw)))

/-- STD k (R137). -/
def execStd (k : Lane) (s : State) : Result :=
  configured s <| .next (advance (memWrite (stdAddr k) (lane s.stage k) s))

end Sys2Proof.Machine
end

