-- ==== Sys2Proof/Machine/PhaseReset.lean ====
section
/-! DEFINITION. The reset input monitor: RSTS, CLP k (42_phase_reset.md). -/

namespace Sys2Proof.Machine

open Sys2Proof

/-- The successor RSTS chooses: S_CDI when the line is high, S_DLY when it is low (R150, R170). -/
def pollSuccessor (v : Bool) : FgCode := if v then 10 else 16

/-- RSTS (R150). -/
def execRsts (s : State) : Result :=
  configured s <|
    .next (goTo (pollSuccessor (drawLevel s.env).1) (latchLevel (drawLevel s.env).1 (s.setEnv (drawLevel s.env).2)))

/-- CLP k (R152). -/
def execClp (k : Lane) (s : State) : Result :=
  configured s <| .next (advance (memWrite (clpAddr k) 0x00 s))

end Sys2Proof.Machine
end

