-- ==== Sys2Proof/Decode.lean ====
section
/-! DEFINITION. Decoding and encoding of operation words (30_encoding.md R81 to R85), and the byte in which the host
hands a word over. There is one format, so the word is the whole instruction. -/

namespace Sys2Proof

/-- Why a word is no operation: the names under which the decoder rejects (R84). -/
inductive DecodeError where
  /-- `opc` is 0b1010 to 0b1111. -/
  | reservedOpcode
  /-- `k` is not 0b00 for an operation that carries no lane number. -/
  | reservedLane
  /-- The host's number has a bit set above the six bits of an operation word. -/
  | notAWord
deriving DecidableEq, Repr

/-- The field `opc`, bits 5:2 (R81). -/
def opcOf (w : OpWord) : BitVec 4 := w.extractLsb' 2 4

/-- The field `k`, bits 1:0 (R81). -/
def laneOf (w : OpWord) : Lane := w.extractLsb' 0 2

/-- An operation without a lane number: its word's `k` must be 0b00 (R82). -/
def decodePlain (w : OpWord) (i : Instr) : Except DecodeError Instr :=
  if laneOf w = 0 then .ok i else .error .reservedLane

/-- The decoder, total on the 64 words (R82, R84). -/
def decode (w : OpWord) : Except DecodeError Instr :=
  match (opcOf w).toNat with
  | 0 => decodePlain w .start
  | 1 => decodePlain w .samp
  | 2 => decodePlain w .map
  | 3 => decodePlain w .di
  | 4 => decodePlain w .ei
  | 5 => .ok (.std (laneOf w))
  | 6 => .ok (.clp (laneOf w))
  | 7 => decodePlain w .rsts
  | 8 => decodePlain w .dly
  | 9 => decodePlain w .tick
  | _ => .error .reservedOpcode

/-- The operation code of each operation (R82). -/
def opcodeOf (i : Instr) : BitVec 4 :=
  match i with
  | .start => 0b0000
  | .samp => 0b0001
  | .map => 0b0010
  | .di => 0b0011
  | .ei => 0b0100
  | .std _ => 0b0101
  | .clp _ => 0b0110
  | .rsts => 0b0111
  | .dly => 0b1000
  | .tick => 0b1001

/-- The `k` field of each operation: the lane number of STD and CLP, 0b00 otherwise (R81). -/
def laneField (i : Instr) : Lane :=
  match i with
  | .std k => k
  | .clp k => k
  | .start | .samp | .map | .di | .ei | .rsts | .dly | .tick => 0

/-- The encoder: `opc` in bits 5:2, `k` in bits 1:0 (R81, R82). -/
def encode (i : Instr) : OpWord := opcodeOf i ++ laneField i

/-- A number from the host as an operation word: bits 5:0 are the word and every higher bit is 0 (log 12). -/
def wordOfNat (w : Nat) : Except DecodeError OpWord :=
  if w < 64 then .ok (BitVec.ofNat 6 w) else .error .notAWord

/-- The decoder on a number, total. -/
def decodeNat (w : Nat) : Except DecodeError Instr :=
  match wordOfNat w with
  | .ok v => decode v
  | .error e => .error e

/-- The instruction the decoder reads from a table word of `nbits` bits. Every operation word is six bits long
(R81), so the number alone decides. -/
def decodeTableWord (_nbits w : Nat) : Option Instr :=
  match decodeNat w with
  | .ok i => some i
  | .error _ => none

end Sys2Proof
end

