-- ==== Sys2Proof/Machine/Sequencing.lean ====
section
/-! DEFINITION. START, DI, EI, DLY, the hardwired foreground program and the selection of the next operation
(43_sequencing.md, 60_exceptions.md R185). -/

namespace Sys2Proof.Machine

open Sys2Proof

/-- START (R160). -/
def execStart (s : State) : Result :=
  configured s <| .next (goTo 1 (enableTicks s))

/-- DI (R162, R164). -/
def execDi (s : State) : Result :=
  configured s <| .next (advance (enterCritical s))

/-- EI (R163, R164). -/
def execEi (s : State) : Result :=
  configured s <| .next (advance (leaveCritical s))

/-- DLY (R165). -/
def execDly (s : State) : Result :=
  configured s <| .next (goTo 1 s)

/-- The operation words of the hardwired foreground program; row `i` is the word of state `FGS = i` (R170). -/
def foregroundProgram : List OpWord :=
  [0x00, 0x04, 0x08, 0x0C, 0x14, 0x15, 0x16, 0x17, 0x10, 0x1C, 0x0C, 0x18, 0x19, 0x1A, 0x1B, 0x10, 0x20]

/-- The word of TICK, which is in no program table (R82, R88). -/
def tickWord : OpWord := 0x24

/-- The word of the block's next operation: TICK's when a tick is due (R185), otherwise the one the program binds to
FGS (R170, R172); none for the codes 17 to 31 (U8). -/
def nextWord (s : State) : Option OpWord :=
  if tickDue s then some tickWord else foregroundProgram[s.fgs.toNat]?

end Sys2Proof.Machine
end

