-- ==== Sys2Proof/Machine/Dispatch.lean ====
section
/-! DEFINITION. One arm per operation (30_encoding.md R80). -/

namespace Sys2Proof.Machine

open Sys2Proof

/-- What an operation does to a state. -/
def exec (i : Instr) (s : State) : Host.Outcome State Fault Refusal :=
  match i with
  | .start => Sys2Proof.Machine.execStart s
  | .samp => Sys2Proof.Machine.execSamp s
  | .map => Sys2Proof.Machine.execMap s
  | .di => Sys2Proof.Machine.execDi s
  | .ei => Sys2Proof.Machine.execEi s
  | .std k => Sys2Proof.Machine.execStd k s
  | .clp k => Sys2Proof.Machine.execClp k s
  | .rsts => Sys2Proof.Machine.execRsts s
  | .dly => Sys2Proof.Machine.execDly s
  | .tick => Sys2Proof.Machine.execTick s

end Sys2Proof.Machine
end

