-- ==== Sys2Proof/Machine/Environment.lean ====
section
/-! DEFINITION. The environment's part in a step: which turn it takes, the timer event TEV (60_exceptions.md R183,
R184) and the block reset (70_reset_and_hazards.md R210). -/

namespace Sys2Proof.Machine

open Sys2Proof

/-- A free turn is never a timer event while TP = 1: the spec's "assumed never" (R184, R200; log 5). -/
def legalTurn (tp : Bool) (t : Turn) : Turn :=
  match t with
  | .timer => if tp then .run else .timer
  | .run => .run
  | .blockReset => .blockReset

/-- The environment's turn at this step: the listed one, or a free one where none is listed (log 4). -/
def turnOf (s : State) : Turn :=
  match s.env.turns with
  | t :: _ => t
  | [] => legalTurn s.tp (Config.freeTurn s.env.draws)

/-- The environment's inputs once its turn is read. -/
def popTurn (e : Env) : Env :=
  match e.turns with
  | _ :: ts => { e with turns := ts }
  | [] => { e with draws := e.draws + 1 }

/-- The state in which a step begins once the environment's turn is read: nothing is presented on `wt_idx` yet, and
`op_id` shows the operation the step performs, or is not driven (R88). -/
def beginStep (op : Option OpWord) (s : State) : State :=
  ((s.setEnv (popTurn s.env)).setOpId op).setWtIdx []

/-- TEV (R183). Where TP = 1 it is an overrun, which the model answers with a fault (R184, U4; log 5). -/
def timerEvent (s : State) : Result :=
  if s.tp then .fault .timerOverrun else .next (latchTick s)

/-- The block reset: the state of R35, the configuration and the environment staying as they are (R210; log 8). -/
def blockReset (s : State) : State := State.init s.cfg s.env

end Sys2Proof.Machine
end

