-- ==== Sys2Proof/Machine/Step.lean ====
section
/-! DEFINITION. One step of the whole: an environment event, or one operation of the block (00_scope.md R9). -/

namespace Sys2Proof.Machine

open Sys2Proof

/-- The block's own step, with `ex` giving the operations their meaning: perform the operation whose word is selected
(R172, R185). No word is selected in a stuck sequencer state (U8); a reserved word is refused (U7). -/
def blockStep (ex : Instr → State → Result) (s : State) : Result :=
  match nextWord s with
  | none => .fault .stuckSequencer
  | some w =>
    match decode w with
    | .ok i => ex i (beginStep (some w) s)
    | .error _ => .refused (.reservedWord w)

/-- One step, with `ex` giving the operations their meaning: the environment's event if it takes this turn, otherwise
the block's step. A configuration that is not well-formed is refused (R6). -/
def stepWith (ex : Instr → State → Result) (s : State) : Result :=
  configured s <|
    match turnOf s with
    | .timer => timerEvent (beginStep none s)
    | .blockReset => .next (blockReset (beginStep none s))
    | .run => blockStep ex s

/-- One step of the machine. -/
def step (s : State) : Host.Outcome State Fault Refusal := stepWith exec s

/-- `s` with the environment letting the block step next. -/
def State.letRun (s : State) : State := s.setEnv { s.env with turns := .run :: s.env.turns }

/-- `s` made to run the operation word `w` next. There is no instruction memory: TICK runs because a tick is due, a
foreground operation because FGS names a state to which the hardwired program binds it and no tick is due, and a
reserved word, which nothing can bring to run (R84), leaves FGS at a code that names no state (log 12, log 13). -/
def State.withFetchWord (s : State) (_nbits w : Nat) : State :=
  if w = 36 then ((s.letRun).setTe true).setTp true
  else ((s.letRun).setTp (s.tp && !s.te)).setFgs
    (BitVec.ofNat 5 (foregroundProgram.findIdx fun v => decide (v.toNat = w)))

end Sys2Proof.Machine
end

