-- ==== Sys2Proof/Machine/Programs.lean ====
section
/-! DEFINITION. Sequences of operations, the pseudo-operations and the assembler's spelling (30_encoding.md R86, R87). -/

namespace Sys2Proof.Machine

open Sys2Proof

/-- The operations of a list, one after another, as operations alone: no environment event and no dispatch between
them. It stops where one of them stops. -/
def execSeq (is : List Instr) (s : State) : Result :=
  match is with
  | [] => .next s
  | i :: rest => andThen (exec i s) (execSeq rest)

/-- `n` steps of a machine with step function `f`, stopping where one of them stops. -/
def runSteps (f : State → Result) (n : Nat) (s : State) : Result :=
  match n with
  | 0 => .next s
  | k + 1 => andThen (f s) (runSteps f k)

/-- PUBLISH (R87). -/
def publish : List Instr := [.di, .std 0, .std 1, .std 2, .std 3, .ei]

/-- CLEAR (R87). -/
def clear : List Instr := [.di, .clp 0, .clp 1, .clp 2, .clp 3, .ei]

/-- UPDATE (R87). -/
def update : List Instr := [.samp, .map] ++ publish

/-- POLL, by the level RSTS samples (R87). -/
def poll (high : Bool) : List Instr := .rsts :: (if high then clear else [])

/-- The mnemonic of an operation (R82). -/
def mnemonic (i : Instr) : String :=
  match i with
  | .start => "START"
  | .samp => "SAMP"
  | .map => "MAP"
  | .di => "DI"
  | .ei => "EI"
  | .std _ => "STD"
  | .clp _ => "CLP"
  | .rsts => "RSTS"
  | .dly => "DLY"
  | .tick => "TICK"

/-- An operation as the assembler writes it: the mnemonic and, for STD and CLP, one space and the lane number in
decimal (R86). -/
def printInstr (i : Instr) : String :=
  match i with
  | .std k => mnemonic i ++ " " ++ toString k.toNat
  | .clp k => mnemonic i ++ " " ++ toString k.toNat
  | .start | .samp | .map | .di | .ei | .rsts | .dly | .tick => mnemonic i

/-- RSTS with its successor annotation, for the labels `high` and `low` (R86). -/
def printRsts (high low : String) : String := printInstr .rsts ++ " -> " ++ high ++ " if RSF else " ++ low

end Sys2Proof.Machine
end

