-- ==== Sys2Proof/Safety.lean ====
section
/-! DEFINITION. What claims about the machine speak of: the invariants the spec states, whole and torn values, and the
machine with atomic publish and clear that the guarded machine refines (70_reset_and_hazards.md R222). -/

namespace Sys2Proof.Machine

open Sys2Proof

/-- `int(PHASE) < N` (10_state.md R36). -/
def PhaseInRange (s : State) : Prop := (intPart s.phase).toNat < s.cfg.N

/-- FGS is one of the seventeen codes 0 to 16 (10_state.md R30). -/
def SequencerLegal (s : State) : Prop := s.fgs.toNat ≤ 16

/-- `0 <= RAW <= ADC_MAX` (10_state.md R25). -/
def ReadingInRange (s : State) : Prop := s.raw.toNat ≤ s.cfg.adcMax

/-- The listed readings keep the environment's contract, none above ADC_MAX (60_exceptions.md R196). -/
def ReadingsLegal (s : State) : Prop := ∀ r ∈ s.env.readings, r.toNat ≤ s.cfg.adcMax

/-- The value of TE in sequencer state `f` of a conforming block: 0 in state 0, 1 in states 1, 2, 3, 9, 10 and 16, 0 in
states 4 to 8 and 11 to 15 (43_sequencing.md R174). -/
def teAt (f : FgCode) : Bool :=
  match f.toNat with
  | 1 | 2 | 3 | 9 | 10 | 16 => true
  | _ => false

/-- TE is as the program leaves it in a conforming block (43_sequencing.md R174). -/
def TicksAsProgrammed (s : State) : Prop := s.te = teAt s.fgs

/-- Every code on the output trace is a multiple of 16 (30_encoding.md R72). -/
def CodesWidened (s : State) : Prop := ∀ w ∈ s.trace, w.code.toNat % 16 = 0

/-- An increment that is not torn: the reset value, or the mapping of some reading (70_reset_and_hazards.md R222 (a)). -/
def WholeIncrement (c : Config) (v : Word) : Prop := v = 0 ∨ ∃ r, r ≤ c.adcMax ∧ v.toNat = fmap c r

/-- How far a publish has come: in states 5 to 8 the lanes below FGS - 4 of PDELTA are those of STAGE (R137, R170). -/
def PublishProgress (s : State) : Prop :=
  5 ≤ s.fgs.toNat → s.fgs.toNat ≤ 8 → ∀ k : Lane, k.toNat < s.fgs.toNat - 4 → lane s.pdelta k = lane s.stage k

/-- How far a clear has come: in states 12 to 15 the lanes below FGS - 11 of PHASE are zero (R152, R170). -/
def ClearProgress (s : State) : Prop :=
  12 ≤ s.fgs.toNat → s.fgs.toNat ≤ 15 → ∀ k : Lane, k.toNat < s.fgs.toNat - 11 → lane s.phase k = 0

/-- STAGE holds the mapping of RAW from the end of MAP to the EI of the publish (R134, R170). -/
def StageMapped (s : State) : Prop :=
  3 ≤ s.fgs.toNat → s.fgs.toNat ≤ 8 → s.stage.toNat = fmap s.cfg s.raw.toNat

/-- Outside a publish under way, PDELTA is whole (70_reset_and_hazards.md R222 (a), (c)). -/
def PdeltaWhole (s : State) : Prop :=
  ¬(5 ≤ s.fgs.toNat ∧ s.fgs.toNat ≤ 7) → WholeIncrement s.cfg s.pdelta

/-- The invariant of the guarded machine. -/
structure GuardedInv (s : State) : Prop where
  wf : s.cfg.wf = true
  guard : s.cfg.fgGuard = true
  sequencer : SequencerLegal s
  reading : ReadingInRange s
  ticks : TicksAsProgrammed s
  stage : StageMapped s
  publish : PublishProgress s
  clear : ClearProgress s
  pdelta : PdeltaWhole s

/-- The operations of the machine with two atomic operations: the lane stores do nothing but advance the sequencer, and
the EI of a publish performs `PDELTA <- STAGE`, the EI of a clear `PHASE <- 0`, in one step (70_reset_and_hazards.md
R222). -/
def atomicExec (i : Instr) (s : State) : Result :=
  match i with
  | .std _ => configured s (.next (advance s))
  | .clp _ => configured s (.next (advance s))
  | .ei => exec .ei (if s.fgs = 8 then s.setPdelta s.stage else if s.fgs = 15 then s.setPhase 0 else s)
  | .start => exec .start s
  | .samp => exec .samp s
  | .map => exec .map s
  | .di => exec .di s
  | .rsts => exec .rsts s
  | .dly => exec .dly s
  | .tick => exec .tick s

/-- One step of the machine with two atomic operations. -/
def atomicStep (s : State) : Result := stepWith atomicExec s

/-- `s`, a state of the guarded machine, stands for `a`, a state of the atomic machine: they agree on everything, but
that while a publish is under way PDELTA may differ, and while a clear is under way PHASE may. -/
structure Refines (s a : State) : Prop where
  rest : s = { a with pdelta := s.pdelta, phase := s.phase }
  pdelta : ¬(5 ≤ s.fgs.toNat ∧ s.fgs.toNat ≤ 8) → s.pdelta = a.pdelta
  phase : ¬(12 ≤ s.fgs.toNat ∧ s.fgs.toNat ≤ 15) → s.phase = a.phase

/-- What the foreground may depend on: everything but PHASE, PDELTA, the output trace and `wt_idx`
(10_state.md R34). -/
def SameForeground (s t : State) : Prop :=
  s = { t with phase := s.phase, pdelta := s.pdelta, trace := s.trace, wtIdx := s.wtIdx }

/-- What the engine may depend on: the configuration, PHASE, PDELTA and what its writes are appended to
(10_state.md R34). -/
def SameEngine (s t : State) : Prop :=
  s.cfg = t.cfg ∧ s.phase = t.phase ∧ s.pdelta = t.pdelta ∧ s.trace = t.trace ∧ s.wtIdx = t.wtIdx

end Sys2Proof.Machine
end

