-- ==== Sys2Proof/Certificates/Slice0/Obligations.lean ====
section
/-! DEFINITION. The statements about the machine. Each says in its docstring which rule of the spec it formalises. The
fields `env`, `opId` and `wtIdx` of State are the model's own renderings of the ports (log 4, log 14, log 15); where a
statement is about the spec's registers alone it leaves them open. -/

open Sys2Proof Sys2Proof.Machine

/-! ### Configuration and reset -/

/-- 10_state.md R35: the reset value of each of the eight registers, and the empty output trace. -/
def Obligations.ResetValues : Prop :=
  State.reset.phase = 0x00000000 ∧ State.reset.pdelta = 0x00000000 ∧ State.reset.stage = 0x00000000 ∧
  State.reset.raw = 0x0000 ∧ State.reset.rsf = false ∧ State.reset.te = false ∧ State.reset.tp = false ∧
  State.reset.fgs = 0 ∧ State.reset.trace = []

/-- 70_reset_and_hazards.md R210, with the reset line as a turn of the environment (the model's choice, log 8): while it
is held the block performs no operation, and the state is that of R35 with the configuration as it was. -/
def Obligations.BlockResetGivesResetValues : Prop :=
  ∀ s : State, s.cfg.wf = true → turnOf s = .blockReset →
    ∃ t, step s = .next t ∧ t.phase = 0 ∧ t.pdelta = 0 ∧ t.stage = 0 ∧ t.raw = 0 ∧ t.rsf = false ∧ t.te = false ∧
      t.tp = false ∧ t.fgs = 0 ∧ t.trace = [] ∧ t.cfg = s.cfg ∧ t.opId = none

/-- The check is WF1 to WF7 of 00_scope.md R6. That a configuration that fails it is refused at every step and at every
operation, where U1 speaks of not instantiating the model, is the model's own deduction (log 3). -/
def Obligations.ConfigurationIsChecked : Prop :=
  (∀ c : Config, c.wf = true ↔
    (1 ≤ c.N ∧ c.N ≤ 65536) ∧ 1 ≤ c.timerRate ∧ 1 ≤ c.scale ∧ (1 ≤ c.adcMax ∧ c.adcMax ≤ 65535) ∧
    c.N * c.adcMax * c.scale ≤ 2 ^ 32 - 1 ∧ c.N * c.scale ≥ c.timerRate ∧ ∀ i < c.N, (waveAt c i).toNat ≤ 255) ∧
  ∀ s : State, s.cfg.wf = false →
    step s = .refused .illFormedConfig ∧ ∀ i, exec i s = .refused .illFormedConfig

/-- 00_scope.md R7: the default configuration, which is the one after reset, and that it is well-formed. -/
def Obligations.DefaultConfiguration : Prop :=
  State.reset.cfg.N = 256 ∧ State.reset.cfg.timerRate = 11363 ∧ State.reset.cfg.scale = 12800 ∧
  State.reset.cfg.adcMax = 1023 ∧ State.reset.cfg.dual = true ∧ State.reset.cfg.fgGuard = true ∧ Byte = BitVec 8 ∧
  State.reset.cfg.wf = true

/-! ### Encoding -/

/-- 30_encoding.md R82: the sixteen legal words, each with its operation; a legal word that is neither STD's nor CLP's
has `k` = 0b00. -/
def Obligations.LegalWordsDecode : Prop :=
  decode 0b000000 = .ok .start ∧ decode 0b000100 = .ok .samp ∧ decode 0b001000 = .ok .map ∧
  decode 0b001100 = .ok .di ∧ decode 0b010000 = .ok .ei ∧
  decode 0b010100 = .ok (.std 0) ∧ decode 0b010101 = .ok (.std 1) ∧ decode 0b010110 = .ok (.std 2) ∧
  decode 0b010111 = .ok (.std 3) ∧ decode 0b011000 = .ok (.clp 0) ∧ decode 0b011001 = .ok (.clp 1) ∧
  decode 0b011010 = .ok (.clp 2) ∧ decode 0b011011 = .ok (.clp 3) ∧
  decode 0b011100 = .ok .rsts ∧ decode 0b100000 = .ok .dly ∧ decode 0b100100 = .ok .tick ∧
  ∀ (w : OpWord) (i : Instr), decode w = .ok i → w.toNat / 4 = 5 ∨ w.toNat / 4 = 6 ∨ w.toNat % 4 = 0

/-- 30_encoding.md R84: which words are reserved, that the decoder answers so, how many are legal, and that a program
with a reserved word is refused by the check while the hardwired program passes it. -/
def Obligations.ReservedWordsAreRejected : Prop :=
  (∀ w : OpWord, 10 ≤ w.toNat / 4 → decode w = .error .reservedOpcode) ∧
  (∀ w : OpWord, w.toNat / 4 ≤ 9 → w.toNat / 4 ≠ 5 → w.toNat / 4 ≠ 6 → w.toNat % 4 ≠ 0 →
    decode w = .error .reservedLane) ∧
  ((List.range 64).filter fun w => (decodeTableWord 8 w).isSome).length = 16 ∧
  (∀ p : List OpWord, programLegal p = true ↔ ∀ w ∈ p, ∃ i, decode w = .ok i) ∧
  programLegal foregroundProgram = true

/-- Decoding and encoding agree in both directions, every operand at every value (30_encoding.md R81 to R83). -/
def Obligations.DecodeAndEncodeAgree : Prop :=
  (∀ i : Instr, decode (encode i) = .ok i) ∧ ∀ (w : OpWord) (i : Instr), decode w = .ok i → encode i = w

/-! ### Steps -/

/-- A step in which the environment lets the block act is the operation whose word is selected, run on the state in
which the environment's turn is read, `op_id` shows the word (R88) and `wt_idx` has presented nothing yet. -/
def Obligations.StepRunsTheSelectedOperation : Prop :=
  ∀ (s : State) (w : OpWord) (i : Instr), s.cfg.wf = true → turnOf s = .run → nextWord s = some w →
    decode w = .ok i →
    step s = exec i { s with env := popTurn s.env, opId := some w, wtIdx := [] }

/-- 60_exceptions.md R183: a timer event needs TP = 0, sets TP and changes nothing else, whatever TE and FGS are. -/
def Obligations.TimerEventSetsPending : Prop :=
  ∀ s : State, s.cfg.wf = true → turnOf s = .timer → s.tp = false →
    ∃ t, step s = .next t ∧ t = { s with tp := true, env := t.env, opId := t.opId, wtIdx := t.wtIdx }

/-- An overrun is a model-level fault: the conservative one of the spec's two treatments, chosen by the model (log 5). -/
def Obligations.OverrunIsAFault : Prop :=
  ∀ s : State, s.cfg.wf = true → turnOf s = .timer → s.tp = true → step s = .fault .timerOverrun

/-- 60_exceptions.md R185: with TE = 1 and TP = 1 the block's next step is TICK; with TE = 0 or TP = 0 it is not. -/
def Obligations.PendingEnabledTickGoesFirst : Prop :=
  (∀ s : State, s.cfg.wf = true → turnOf s = .run → s.te = true → s.tp = true →
    ∃ t, step s = .next t ∧ t.opId = some 0x24 ∧
      exec .tick { s with env := popTurn s.env, opId := some 0x24, wtIdx := [] } = .next t) ∧
  ∀ s t : State, s.te = false ∨ s.tp = false → step s = .next t → t.opId ≠ some 0x24

/-- 43_sequencing.md R170: the operation and the successor of each of the seventeen states. -/
def Obligations.ForegroundProgramRows : Prop :=
  ∀ s : State, s.cfg.wf = true → turnOf s = .run → ¬(s.te = true ∧ s.tp = true) → (s.fgs = 1 → ReadingsLegal s) →
    s.fgs.toNat ≤ 16 →
    ∃ t, step s = .next t ∧
      (s.fgs = 0 → t.opId = some 0x00 ∧ t.fgs = 1) ∧
      (s.fgs = 1 → t.opId = some 0x04 ∧ t.fgs = 2) ∧
      (s.fgs = 2 → t.opId = some 0x08 ∧ t.fgs = 3) ∧
      (s.fgs = 3 → t.opId = some 0x0C ∧ t.fgs = 4) ∧
      (s.fgs = 4 → t.opId = some 0x14 ∧ t.fgs = 5) ∧
      (s.fgs = 5 → t.opId = some 0x15 ∧ t.fgs = 6) ∧
      (s.fgs = 6 → t.opId = some 0x16 ∧ t.fgs = 7) ∧
      (s.fgs = 7 → t.opId = some 0x17 ∧ t.fgs = 8) ∧
      (s.fgs = 8 → t.opId = some 0x10 ∧ t.fgs = 9) ∧
      (s.fgs = 9 → t.opId = some 0x1C ∧ t.fgs = if t.rsf then 10 else 16) ∧
      (s.fgs = 10 → t.opId = some 0x0C ∧ t.fgs = 11) ∧
      (s.fgs = 11 → t.opId = some 0x18 ∧ t.fgs = 12) ∧
      (s.fgs = 12 → t.opId = some 0x19 ∧ t.fgs = 13) ∧
      (s.fgs = 13 → t.opId = some 0x1A ∧ t.fgs = 14) ∧
      (s.fgs = 14 → t.opId = some 0x1B ∧ t.fgs = 15) ∧
      (s.fgs = 15 → t.opId = some 0x10 ∧ t.fgs = 16) ∧
      (s.fgs = 16 → t.opId = some 0x20 ∧ t.fgs = 1)

/-- A step of the block keeps FGS a code of the program, and a foreground step's successor is never 0
(43_sequencing.md R171). -/
def Obligations.SuccessorsAreCodes1To16 : Prop :=
  (∀ s t : State, SequencerLegal s → step s = .next t → SequencerLegal t) ∧
  ∀ s t : State, turnOf s = .run → ¬(s.te = true ∧ s.tp = true) → step s = .next t →
    1 ≤ t.fgs.toNat ∧ t.fgs.toNat ≤ 16

/-- A state with FGS 17 to 31 is stuck (U8), unless a tick is due: that the step is then TICK, which leaves FGS alone, is
the model's reading (log 9). -/
def Obligations.UnassignedSequencerCodesAreStuck : Prop :=
  ∀ s : State, s.cfg.wf = true → turnOf s = .run → 17 ≤ s.fgs.toNat →
    (¬(s.te = true ∧ s.tp = true) → step s = .fault .stuckSequencer) ∧
    (s.te = true → s.tp = true → ∃ t, step s = .next t ∧ t.opId = some 0x24 ∧ t.fgs = s.fgs ∧
      exec .tick { s with env := popTurn s.env, opId := some 0x24, wtIdx := [] } = .next t)

/-- From the reset values the first step of the block is START, and a timer event before it is served right after it
(70_reset_and_hazards.md R211). -/
def Obligations.StartIsTheFirstStep : Prop :=
  ∀ (c : Config) (e : Env), c.wf = true →
    (turnOf (State.init c e) = .run →
      ∃ t, step (State.init c e) = .next t ∧ t.opId = some 0x00 ∧ t.te = true ∧ t.fgs = 1) ∧
    (∀ rest, e.turns = .timer :: .run :: .run :: rest →
      ∃ t, runSteps step 3 (State.init c e) = .next t ∧ t.opId = some 0x24 ∧ t.tp = false ∧ t.fgs = 1)

/-! ### The foreground operations -/

/-- START (43_sequencing.md R160): TE and FGS are written and nothing else. -/
def Obligations.StartEffect : Prop :=
  ∀ s : State, s.cfg.wf = true → exec .start s = .next { s with te := true, fgs := 1 }

/-- 41_frequency_control.md R131: SAMP takes a reading in `0 .. ADC_MAX`, the environment's listed one where it lists
one; RAW and FGS are written and no other register. -/
def Obligations.SampTakesAReading : Prop :=
  decode 0x04 = .ok .samp ∧
  ∀ s : State, s.cfg.wf = true → ReadingsLegal s →
    ∃ r e, r.toNat ≤ s.cfg.adcMax ∧ exec .samp s = .next { s with raw := r, fgs := 2, env := e } ∧
      ∀ x xs, s.env.readings = x :: xs → r = x ∧ e = { s.env with readings := xs }

/-- SAMP is refused where the listed reading is above ADC_MAX: the spec's treatment of an input that cannot occur
(U5; log 6). -/
def Obligations.ReadingAboveRangeIsRefused : Prop :=
  ∀ (s : State) (x : Half) (xs : List Half), s.cfg.wf = true → s.env.readings = x :: xs → s.cfg.adcMax < x.toNat →
    exec .samp s = .refused .readingOutOfRange

/-- 41_frequency_control.md R134: MAP's result for every reading in range, that no intermediate needs more than 32 bits,
that the result is at least 1, and that nothing but STAGE and FGS changes. The last clause is the model's choice, not
R134's: for a RAW above ADC_MAX, which R25 rules out, MAP still completes, with some value in STAGE (log 11). -/
def Obligations.MapComputesTheIncrement : Prop :=
  decode 0x08 = .ok .map ∧
  (∀ s : State, s.cfg.wf = true → s.raw.toNat ≤ s.cfg.adcMax →
    s.cfg.N * (max s.raw.toNat 1 * s.cfg.scale) < 2 ^ 32 ∧
    1 ≤ s.cfg.N * (max s.raw.toNat 1 * s.cfg.scale) / s.cfg.timerRate ∧
    exec .map s = .next
      { s with stage := BitVec.ofNat 32 (s.cfg.N * (max s.raw.toNat 1 * s.cfg.scale) / s.cfg.timerRate), fgs := 3 }) ∧
  ∀ s : State, s.cfg.wf = true → ∃ v, exec .map s = .next { s with stage := v, fgs := 3 }

/-- STD k (41_frequency_control.md R137) copies lane `k` of STAGE to lane `k` of PDELTA and changes no other lane, no
other byte of the lane space and no other register but FGS. R137 gives the sum FGS + 1 for 4 to 7; that it is in five bits
in every other state is the model's choice (log 10). -/
def Obligations.StdStoresOneLane : Prop :=
  ∀ (k : Lane) (s : State), decode (0x14 + k.setWidth 6) = .ok (.std k) ∧ (s.cfg.wf = true →
    ∃ t, exec (.std k) s = .next t ∧ t = { s with pdelta := t.pdelta, fgs := s.fgs + 1 } ∧
      (∀ j, lane t.pdelta j = if j = k then lane s.stage k else lane s.pdelta j) ∧
      ∀ a, a ≠ stdAddr k → laneAt t a = laneAt s a)

/-- CLP k (42_phase_reset.md R152) stores zero to lane `k` of PHASE and changes no other lane, no other byte of the lane
space and no other register but FGS; the integer part of PHASE does not grow. R152 gives the sum FGS + 1 for 11 to 14; that
it is in five bits in every other state is the model's choice (log 10). -/
def Obligations.ClpClearsOneLane : Prop :=
  ∀ (k : Lane) (s : State), decode (0x18 + k.setWidth 6) = .ok (.clp k) ∧ (s.cfg.wf = true →
    ∃ t, exec (.clp k) s = .next t ∧ t = { s with phase := t.phase, fgs := s.fgs + 1 } ∧
      (∀ j, lane t.phase j = if j = k then 0x00 else lane s.phase j) ∧
      (∀ a, a ≠ clpAddr k → laneAt t a = laneAt s a) ∧ (intPart t.phase).toNat ≤ (intPart s.phase).toNat)

/-- 42_phase_reset.md R150: RSTS samples the level, the environment's listed one where it lists one; RSF gets it, FGS
gets 10 or 16 by it, and no other register changes. -/
def Obligations.RstsSamplesTheLine : Prop :=
  decode 0x1C = .ok .rsts ∧
  ∀ s : State, s.cfg.wf = true →
    ∃ v e, exec .rsts s = .next { s with rsf := v, fgs := if v then 10 else 16, env := e } ∧
      ∀ x xs, s.env.levels = x :: xs → v = x ∧ e = { s.env with levels := xs }

/-- DLY (43_sequencing.md R165): FGS is written and nothing else, and it always completes. -/
def Obligations.DlyEffect : Prop :=
  decode 0b100000 = .ok .dly ∧ ∀ s : State, s.cfg.wf = true → exec .dly s = .next { s with fgs := 1 }

/-- DI and EI in a conforming block (43_sequencing.md R162, R163): TE and FGS are written and nothing else, TP among it;
after DI no tick is due, after EI a pending one is. The sum FGS + 1 is in five bits where they are taken alone
(log 10). -/
def Obligations.CriticalSectionOperations : Prop :=
  ∀ s : State, s.cfg.wf = true → s.cfg.fgGuard = true →
    exec .di s = .next { s with te := false, fgs := s.fgs + 1 } ∧
    exec .ei s = .next { s with te := true, fgs := s.fgs + 1 } ∧
    (∀ t, exec .di s = .next t → tickDue t = false) ∧ (∀ t, exec .ei s = .next t → tickDue t = s.tp)

/-- 43_sequencing.md R164: in the variant `FG_GUARD = 0`, DI and EI leave TE alone and only advance FGS. That the sum
FGS + 1 is in five bits where they are taken alone is the model's choice (log 10). -/
def Obligations.UnguardedCriticalSectionOperations : Prop :=
  ∀ s : State, s.cfg.wf = true → s.cfg.fgGuard = false →
    exec .di s = .next { s with fgs := s.fgs + 1 } ∧ exec .ei s = .next { s with fgs := s.fgs + 1 }

/-- 20_memory.md R56, on the lane map of R54 and the byte order of R55: a store changes the addressed byte and nothing
else, and storing the same byte twice is the same as storing it once. -/
def Obligations.LaneStoreWritesItsByte : Prop :=
  (∀ s : State, laneAt s 0 = s.pdelta.extractLsb' 0 8 ∧ laneAt s 1 = s.pdelta.extractLsb' 8 8 ∧
    laneAt s 2 = s.pdelta.extractLsb' 16 8 ∧ laneAt s 3 = s.pdelta.extractLsb' 24 8 ∧
    laneAt s 4 = s.phase.extractLsb' 0 8 ∧ laneAt s 5 = s.phase.extractLsb' 8 8 ∧
    laneAt s 6 = s.phase.extractLsb' 16 8 ∧ laneAt s 7 = s.phase.extractLsb' 24 8) ∧
  ∀ (a : LaneAddr) (b : Byte) (s : State),
    (∀ x, laneAt (memWrite a b s) x = if x = a then b else laneAt s x) ∧
    (a.toNat ≤ 3 → memWrite a b s = { s with pdelta := (memWrite a b s).pdelta }) ∧
    (4 ≤ a.toNat → memWrite a b s = { s with phase := (memWrite a b s).phase }) ∧
    memWrite a b (memWrite a b s) = memWrite a b s

/-! ### TICK -/

/-- 40_engine_tick.md R100 to R109: TICK in a well-formed configuration, on every PHASE and PDELTA: the wrapped sum, the
full remainder with the fraction kept, one or two table reads and as many DAC writes in order, TP cleared, and no other
register written; and when its word is the one selected. -/
def Obligations.TickEffect : Prop :=
  decode 0b100100 = .ok .tick ∧ (∀ s : State, nextWord s = some 0x24 ↔ s.te = true ∧ s.tp = true) ∧
  ∀ s : State, s.cfg.wf = true →
    let p := (s.phase.toNat + s.pdelta.toNat) % 2 ^ 32
    let idx := p / 65536 % s.cfg.N
    let idxB := (idx + s.cfg.N / 4) % s.cfg.N
    ∃ t, exec .tick s = .next t ∧
      t = { s with phase := t.phase, tp := false, trace := t.trace, wtIdx := t.wtIdx } ∧
      t.phase.toNat = idx * 65536 + p % 65536 ∧
      t.wtIdx = s.wtIdx ++ (BitVec.ofNat 16 idx :: if s.cfg.dual then [BitVec.ofNat 16 idxB] else []) ∧
      ∃ a b : Code, a.toNat = (waveAt s.cfg idx).toNat * 16 ∧ b.toNat = (waveAt s.cfg idxB).toNat * 16 ∧
        t.trace = s.trace ++ (⟨a, .A⟩ :: if s.cfg.dual then [⟨b, .B⟩] else [])

/-- 40_engine_tick.md R111: with PDELTA = 0 a TICK leaves PHASE as it is, and a second TICK emits what the first did. -/
def Obligations.ZeroIncrementHolds : Prop :=
  ∀ s : State, s.cfg.wf = true → s.pdelta = 0 → PhaseInRange s →
    ∃ t u l, exec .tick s = .next t ∧ exec .tick t = .next u ∧ t.phase = s.phase ∧ u.phase = s.phase ∧ l ≠ [] ∧
      t.trace = s.trace ++ l ∧ u.trace = t.trace ++ l

/-- 40_engine_tick.md R112: whatever PHASE and PDELTA are, every index a TICK presents to the wavetable is below `N`; it
presents one, or two in dual mode (20_memory.md R52), and no read is made outside the table. -/
def Obligations.TableReadsAreInRange : Prop :=
  ∀ s : State, s.cfg.wf = true →
    ∃ t l, exec .tick s = .next t ∧ t.wtIdx = s.wtIdx ++ l ∧ l.length = (if s.cfg.dual then 2 else 1) ∧
      ∀ i ∈ l, i.toNat < s.cfg.N

/-- 40_engine_tick.md R113: the fraction is continued through a wrap, and without a carry out of bit 31 PHASE is the sum
modulo the table. -/
def Obligations.PhaseIsContinuous : Prop :=
  ∀ s : State, s.cfg.wf = true →
    ∃ t, exec .tick s = .next t ∧
      (fracPart t.phase).toNat = ((fracPart s.phase).toNat + (fracPart s.pdelta).toNat) % 65536 ∧
      (s.phase.toNat + s.pdelta.toNat < 2 ^ 32 →
        t.phase.toNat = (s.phase.toNat + s.pdelta.toNat) % (s.cfg.N * 65536))

/-- 40_engine_tick.md R114: in dual mode the second index is the first one moved by a quarter of the table, and channel
B's sample is the one there. -/
def Obligations.QuadratureOffset : Prop :=
  ∀ s : State, s.cfg.wf = true → s.cfg.dual = true →
    ∃ t a b, exec .tick s = .next t ∧ t.wtIdx = s.wtIdx ++ [a, b] ∧ a = intPart t.phase ∧
      b.toNat = (a.toNat + s.cfg.N / 4) % s.cfg.N ∧
      t.trace = s.trace ++ [⟨widen (waveAt s.cfg a.toNat), .A⟩,
        ⟨widen (waveAt s.cfg ((a.toNat + s.cfg.N / 4) % s.cfg.N)), .B⟩]

/-- 40_engine_tick.md R116: where the sum carries out of bit 31 the index is taken from the wrapped sum, and `65536 mod N`
entries are lost from the count. -/
def Obligations.TopOfRangeCorner : Prop :=
  ∀ s : State, s.cfg.wf = true → 2 ^ 32 ≤ s.phase.toNat + s.pdelta.toNat →
    ∃ t, exec .tick s = .next t ∧
      (intPart t.phase).toNat = (s.phase.toNat + s.pdelta.toNat - 2 ^ 32) / 65536 % s.cfg.N ∧
      ((intPart t.phase).toNat + 65536 % s.cfg.N) % s.cfg.N = (s.phase.toNat + s.pdelta.toNat) / 65536 % s.cfg.N

/-- 40_engine_tick.md R117: a large increment acts as its remainder modulo the table, as long as R116's corner is not
met. -/
def Obligations.LargeIncrementsAreReduced : Prop :=
  ∀ s : State, s.cfg.wf = true → s.phase.toNat + s.pdelta.toNat < 2 ^ 32 →
    ∃ t u, exec .tick s = .next t ∧
      exec .tick { s with pdelta := BitVec.ofNat 32 (s.pdelta.toNat % (s.cfg.N * 65536)) } = .next u ∧
      t.phase = u.phase ∧ t.trace = u.trace ∧ t.wtIdx = u.wtIdx

/-- The phase after any number of ticks with a constant increment that cannot carry out of bit 31
(40_engine_tick.md R113, R115). -/
def Obligations.PhaseAfterManyTicks : Prop :=
  ∀ (n : Nat) (s : State), s.cfg.wf = true → PhaseInRange s → s.cfg.N * 65536 + s.pdelta.toNat ≤ 2 ^ 32 →
    ∃ t, execSeq (List.replicate n .tick) s = .next t ∧ t.pdelta = s.pdelta ∧
      t.phase.toNat = (s.phase.toNat + n * s.pdelta.toNat) % (s.cfg.N * 65536)

/-- The output before the first publish (70_reset_and_hazards.md R213): with PHASE and PDELTA 0, a TICK leaves both and
emits `WAVE[0]`, and in dual mode `WAVE[Q]`. -/
def Obligations.SilenceBeforeTheFirstPublish : Prop :=
  ∀ s : State, s.cfg.wf = true → s.phase = 0 → s.pdelta = 0 →
    ∃ t a b, exec .tick s = .next t ∧ t.phase = 0 ∧ t.pdelta = 0 ∧
      a.toNat = (waveAt s.cfg 0).toNat * 16 ∧ b.toNat = (waveAt s.cfg (s.cfg.N / 4)).toNat * 16 ∧
      t.trace = s.trace ++ (⟨a, .A⟩ :: if s.cfg.dual then [⟨b, .B⟩] else [])

/-- The first TICK after a clear adds first and looks up second (42_phase_reset.md R154, 90_conflicts.md C3). -/
def Obligations.FirstTickAfterAClear : Prop :=
  ∀ s : State, s.cfg.wf = true → s.phase = 0 →
    ∃ t, exec .tick s = .next t ∧ t.phase.toNat = s.pdelta.toNat % (s.cfg.N * 65536) ∧
      (intPart t.phase).toNat = (intPart s.pdelta).toNat % s.cfg.N ∧
      (s.pdelta.toNat < 65536 → (intPart t.phase).toNat = 0)

/-! ### Sequences of operations -/

/-- PUBLISH in a conforming block is `PDELTA <- STAGE` (41_frequency_control.md R138, 30_encoding.md R87). The program
performs it from FGS = 3; that the sum FGS + 6 is in five bits from every other state is the model's choice (log 10). -/
def Obligations.PublishCopiesStage : Prop :=
  ∀ s : State, s.cfg.wf = true → s.cfg.fgGuard = true →
    execSeq publish s = .next { s with pdelta := s.stage, te := true, fgs := s.fgs + 6 }

/-- CLEAR in a conforming block is `PHASE <- 0`; PDELTA, STAGE, RAW and the output trace stay (42_phase_reset.md R153,
R156). The program performs it from FGS = 10; that the sum FGS + 6 is in five bits from every other state is the model's
choice (log 10). -/
def Obligations.ClearZeroesPhase : Prop :=
  ∀ s : State, s.cfg.wf = true → s.cfg.fgGuard = true →
    execSeq clear s = .next { s with phase := 0, te := true, fgs := s.fgs + 6 }

/-- One pass of the controller publishes the mapping of the reading it took (41_frequency_control.md R130). -/
def Obligations.UpdatePublishesTheReading : Prop :=
  ∀ s : State, s.cfg.wf = true → s.cfg.fgGuard = true → ReadingsLegal s →
    ∃ t, execSeq update s = .next t ∧ t.raw.toNat ≤ s.cfg.adcMax ∧
      t.pdelta.toNat = s.cfg.N * (max t.raw.toNat 1 * s.cfg.scale) / s.cfg.timerRate ∧
      (∀ x xs, s.env.readings = x :: xs → t.raw = x) ∧ t.phase = s.phase ∧ t.trace = s.trace ∧ t.fgs = 9

/-- What PDELTA holds part way through a publish: the new value in the lanes stored, the old one in the others
(70_reset_and_hazards.md R224). -/
def Obligations.PartialPublishIsALaneMixture : Prop :=
  ∀ (j : Nat) (s : State), s.cfg.wf = true → j ≤ 4 →
    ∃ t, execSeq ((List.range j).map fun n => .std (BitVec.ofNat 2 n)) s = .next t ∧
      (∀ k, lane t.pdelta k = if k.toNat < j then lane s.stage k else lane s.pdelta k) ∧
      t = { s with pdelta := t.pdelta, fgs := t.fgs }

/-- A TICK inside a clear: it reads the low `j` lanes as zero, and afterwards those lanes are the TICK's while the others
are cleared; PHASE stays in range (70_reset_and_hazards.md R224). -/
def Obligations.TickInsideAClearPartlyUndoesIt : Prop :=
  ∀ (j : Nat) (s : State), s.cfg.wf = true → PhaseInRange s → 1 ≤ j → j ≤ 3 →
    ∃ t u v, execSeq ((List.range j).map fun n => .clp (BitVec.ofNat 2 n)) s = .next t ∧
      exec .tick t = .next u ∧
      execSeq ((List.range (4 - j)).map fun n => .clp (BitVec.ofNat 2 (j + n))) u = .next v ∧
      (∀ k, lane t.phase k = if k.toNat < j then 0 else lane s.phase k) ∧
      (∀ k, lane v.phase k = if k.toNat < j then lane u.phase k else 0) ∧ PhaseInRange v

/-- Without the guard a TICK can read a torn increment, in a run from the reset values (43_sequencing.md R164,
70_reset_and_hazards.md R224). -/
def Obligations.UnguardedTickCanReadATornIncrement : Prop :=
  ∃ (c : Config) (e : Env) (n : Nat) (s t : State), c.wf = true ∧ c.fgGuard = false ∧
    runSteps step n (State.init c e) = .next s ∧ step s = .next t ∧ t.opId = some 0x24 ∧ ¬ WholeIncrement c s.pdelta

/-! ### The frequency mapping -/

/-- 41_frequency_control.md R135 and R139: the bounds of the mapping, its one floor, and its bounds in the default
configuration. -/
def Obligations.MappingBounds : Prop :=
  (∀ (c : Config) (r : Nat), c.wf = true → r ≤ c.adcMax →
    1 ≤ c.N * c.scale / c.timerRate ∧ c.N * c.scale / c.timerRate ≤ fmap c r ∧
    fmap c r ≤ c.N * c.adcMax * c.scale / c.timerRate ∧
    fmap c r * c.timerRate ≤ c.N * (max r 1 * c.scale) ∧ c.N * (max r 1 * c.scale) < (fmap c r + 1) * c.timerRate) ∧
  fmap Config.default 0 = 288 ∧ fmap Config.default 1023 = 295007

/-- 41_frequency_control.md R136 and R140: the mapping never decreases, strictly increases from 1 on, gives 0 and 1 the
same value, 288 in the default configuration, and no other two readings; there neighbours differ by 288 or 289. -/
def Obligations.MappingIsMonotone : Prop :=
  (∀ (c : Config) (r₁ r₂ : Nat), c.wf = true → r₂ ≤ c.adcMax →
    (r₁ ≤ r₂ → fmap c r₁ ≤ fmap c r₂) ∧ (1 ≤ r₁ → r₁ < r₂ → fmap c r₁ < fmap c r₂) ∧
    (r₁ < r₂ → fmap c r₁ = fmap c r₂ → r₁ = 0 ∧ r₂ = 1)) ∧
  (∀ c : Config, fmap c 0 = fmap c 1) ∧ fmap Config.default 0 = 288 ∧ fmap Config.default 1 = 288 ∧
  ∀ r, 1 ≤ r → r < 1023 →
    fmap Config.default (r + 1) = fmap Config.default r + 288 ∨ fmap Config.default (r + 1) = fmap Config.default r + 289

/-! ### Whole-machine rules -/

/-- 60_exceptions.md R180: every operation is total on every state of a well-formed configuration, SAMP where the listed
readings keep the environment's contract (R196), and none raises a fault, whatever the environment lists. -/
def Obligations.EveryOperationCompletes : Prop :=
  ∀ (i : Instr) (s : State), s.cfg.wf = true →
    ((i = .samp → ReadingsLegal s) → ∃ t, exec i s = .next t) ∧ ∀ r, exec i s ≠ .fault r

/-- TICK depends on nothing but the configuration, PHASE and PDELTA (10_state.md R34, 43_sequencing.md R173). -/
def Obligations.TickIgnoresTheForeground : Prop :=
  ∀ s₁ s₂ t₁ : State, SameEngine s₁ s₂ → exec .tick s₁ = .next t₁ →
    ∃ t₂, exec .tick s₂ = .next t₂ ∧ SameEngine t₁ t₂ ∧
      t₂ = { s₂ with phase := t₁.phase, trace := t₁.trace, wtIdx := t₁.wtIdx, tp := false }

/-- No foreground operation reads PHASE or PDELTA, nor emits anything (10_state.md R21, R22, R34). -/
def Obligations.ForegroundIgnoresTheSharedRegisters : Prop :=
  ∀ (i : Instr) (s₁ s₂ t₁ : State), i ≠ .tick → SameForeground s₁ s₂ → exec i s₁ = .next t₁ →
    t₁.trace = s₁.trace ∧ t₁.wtIdx = s₁.wtIdx ∧ ∃ t₂, exec i s₂ = .next t₂ ∧ SameForeground t₁ t₂

/-- The configuration never changes (00_scope.md R5). -/
def Obligations.ConfigurationNeverChanges : Prop :=
  ∀ s t : State, step s = .next t → t.cfg = s.cfg

/-- 10_state.md R36: the integer part of PHASE is below `N` at reset and after every step, whatever FG_GUARD is. -/
def Obligations.PhaseStaysInRange : Prop :=
  (∀ (c : Config) (e : Env), c.wf = true → PhaseInRange (State.init c e)) ∧
  ∀ s t : State, PhaseInRange s → step s = .next t → PhaseInRange t

/-- 10_state.md R25: RAW stays in `0 .. ADC_MAX`. -/
def Obligations.RawStaysInRange : Prop :=
  ∀ s t : State, ReadingInRange s → step s = .next t → ReadingInRange t

/-- 43_sequencing.md R174: TE along the program, at reset and after every step of a conforming block; so lane stores are
performed only with TE = 0, and SAMP, MAP, RSTS and DLY only with TE = 1. -/
def Obligations.TickEnableFollowsTheProgram : Prop :=
  (∀ f : FgCode, teAt f = true ↔ f = 1 ∨ f = 2 ∨ f = 3 ∨ f = 9 ∨ f = 10 ∨ f = 16) ∧
  (∀ (c : Config) (e : Env), TicksAsProgrammed (State.init c e)) ∧
  (∀ (s : State) (w : OpWord), TicksAsProgrammed s → nextWord s = some w →
    (∀ k, decode w = .ok (.std k) ∨ decode w = .ok (.clp k) → s.te = false) ∧
    (decode w = .ok .samp ∨ decode w = .ok .map ∨ decode w = .ok .rsts ∨ decode w = .ok .dly → s.te = true)) ∧
  ∀ s t : State, s.cfg.fgGuard = true → SequencerLegal s → TicksAsProgrammed s → step s = .next t →
    TicksAsProgrammed t

/-- Every code on the output trace is a multiple of 16 (30_encoding.md R72). -/
def Obligations.CodesStayMultiplesOf16 : Prop :=
  ∀ s t : State, CodesWidened s → step s = .next t → CodesWidened t

/-- The output trace only grows, by one or two writes in a TICK and by none in any other step; only the block reset
empties it (10_state.md R32, 40_engine_tick.md R108). -/
def Obligations.TraceGrowsOnlyByTicks : Prop :=
  ∀ s t : State, step s = .next t → turnOf s ≠ .blockReset →
    ∃ l, t.trace = s.trace ++ l ∧ (t.opId = some 0x24 → l.length = if s.cfg.dual then 2 else 1) ∧
      (t.opId ≠ some 0x24 → l = [])

/-- Two TICKs are separated by a timer event: a TICK leaves TP = 0, and no step but a timer event sets TP
(60_exceptions.md R186, R188). -/
def Obligations.TicksAreSeparatedByTimerEvents : Prop :=
  ∀ s t : State, step s = .next t →
    (t.opId = some 0x24 → s.tp = true ∧ t.tp = false) ∧ (s.tp = false → turnOf s ≠ .timer → t.tp = false)

/-- A pending tick is held off for at most five steps of the foreground, and nothing is emitted meanwhile
(20_memory.md R63). -/
def Obligations.HeldOffTickIsDueWithinFiveSteps : Prop :=
  ∀ (s : State) (rest : List Turn), GuardedInv s → s.tp = true → s.env.turns = List.replicate 5 .run ++ rest →
    ∃ n t, n ≤ 5 ∧ runSteps step n s = .next t ∧ t.te = true ∧ t.tp = true ∧ t.trace = s.trace

/-- The invariant of the guarded machine holds at reset, in every conforming configuration. -/
def Obligations.GuardedInvariantAtReset : Prop :=
  GuardedInv State.reset ∧
  ∀ (c : Config) (e : Env), c.wf = true → c.fgGuard = true → GuardedInv (State.init c e)

/-- Every step of the guarded machine keeps the invariant: RAW in range, TE as programmed, STAGE the mapping of RAW
while it is published, the lanes stored so far, and PDELTA whole outside a publish (43_sequencing.md R174,
70_reset_and_hazards.md R222). -/
def Obligations.GuardedInvariantIsKept : Prop :=
  ∀ s t : State, GuardedInv s → step s = .next t → GuardedInv t

/-- Under the guard every TICK reads a whole increment (70_reset_and_hazards.md R222 (a), (c)). -/
def Obligations.GuardedTickReadsAWholeIncrement : Prop :=
  ∀ s t : State, GuardedInv s → step s = .next t → t.opId = some 0x24 → WholeIncrement s.cfg s.pdelta

/-- Step by step, the guarded machine refines the machine in which a publish and a clear are one atomic operation each,
at their EI (70_reset_and_hazards.md R222). -/
def Obligations.GuardedMachineRefinesAtomicMachine : Prop :=
  ∀ s a t : State, GuardedInv s → Refines s a → step s = .next t → ∃ b, atomicStep a = .next b ∧ Refines t b

/-- Every output trace of the guarded machine is an output trace of the machine with two atomic operations, in the same
environment (70_reset_and_hazards.md R222). -/
def Obligations.GuardedTracesAreAtomicTraces : Prop :=
  ∀ (c : Config) (e : Env) (n : Nat) (s : State), c.wf = true → c.fgGuard = true →
    runSteps step n (State.init c e) = .next s →
    ∃ a, runSteps atomicStep n (State.init c e) = .next a ∧ a.trace = s.trace
end

