-- ==== Sys2Proof/Laws/Config.lean ====
section
/-! SUPPORT. What a well-formed configuration gives, clause by clause (00_scope.md R6). -/

namespace Sys2Proof.Config

variable {c : Config}

/-- The check says exactly what R6 says. -/
theorem wf_iff : c.wf = true ↔
    (1 ≤ c.N ∧ c.N ≤ 65536) ∧ 1 ≤ c.timerRate ∧ 1 ≤ c.scale ∧ (1 ≤ c.adcMax ∧ c.adcMax ≤ 65535) ∧
      c.N * c.adcMax * c.scale ≤ 4294967295 ∧ c.timerRate ≤ c.N * c.scale := by
  simp [wf, wf1, wf2, wf3, wf4, wf5, wf6, and_assoc]

theorem wf.N_pos (h : c.wf = true) : 0 < c.N := (wf_iff.mp h).1.1

theorem wf.N_le (h : c.wf = true) : c.N ≤ 65536 := (wf_iff.mp h).1.2

theorem wf.timerRate_pos (h : c.wf = true) : 0 < c.timerRate := (wf_iff.mp h).2.1

theorem wf.scale_pos (h : c.wf = true) : 0 < c.scale := (wf_iff.mp h).2.2.1

theorem wf.adcMax_le (h : c.wf = true) : c.adcMax ≤ 65535 := (wf_iff.mp h).2.2.2.1.2

theorem wf.adcMax_pos (h : c.wf = true) : 1 ≤ c.adcMax := (wf_iff.mp h).2.2.2.1.1

theorem wf.product_le (h : c.wf = true) : c.N * c.adcMax * c.scale ≤ 4294967295 := (wf_iff.mp h).2.2.2.2.1

theorem wf.timerRate_le (h : c.wf = true) : c.timerRate ≤ c.N * c.scale := (wf_iff.mp h).2.2.2.2.2

end Sys2Proof.Config
end

