-- ==== Sys2Proof/Laws/Operands.lean ====
section
/-! SUPPORT. The data formats as natural numbers, the lanes, the wraparound and the mapping: one lemma for each thing a
proof needs, so that no later proof unfolds a bit field. -/

namespace Sys2Proof.Machine

open Sys2Proof

/-! ### Q16.16 -/

theorem intPart_toNat (v : Word) : (intPart v).toNat = v.toNat / 65536 := by
  have h := v.isLt
  simp only [intPart, BitVec.extractLsb'_toNat, Nat.shiftRight_eq_div_pow]
  omega

theorem fracPart_toNat (v : Word) : (fracPart v).toNat = v.toNat % 65536 := by
  simp [fracPart, BitVec.extractLsb'_toNat]

/-- A Q16.16 value put together from its two halves. -/
theorem join_toNat (i f : Half) : (i ++ f : Word).toNat = i.toNat * 65536 + f.toNat := by
  have h := f.isLt
  rw [BitVec.toNat_append, Nat.shiftLeft_eq, Nat.mul_comm, ← Nat.two_pow_add_eq_or_of_lt h, Nat.mul_comm]

@[simp] theorem intPart_join (i f : Half) : intPart (i ++ f : Word) = i := by
  apply BitVec.eq_of_toNat_eq
  have h := f.isLt
  rw [intPart_toNat, join_toNat]
  omega

@[simp] theorem fracPart_join (i f : Half) : fracPart (i ++ f : Word) = f := by
  apply BitVec.eq_of_toNat_eq
  have h := f.isLt
  rw [fracPart_toNat, join_toNat]
  omega

/-! ### Lanes -/

/-- The bits of `setlane`: those of `b` in lane `k`, those of `v` elsewhere. -/
theorem setlane_getLsbD (v : Word) (k : Lane) (b : Byte) (i : Nat) :
    (setlane v k b).getLsbD i =
      if 8 * k.toNat ≤ i ∧ i < 8 * k.toNat + 8 then decide (i < 32) && b.getLsbD (i - 8 * k.toNat)
      else v.getLsbD i := by
  have hff : ∀ j : Nat, (0xFF#32).getLsbD j = decide (j < 8) := by
    intro j
    by_cases hj : j < 32
    · interval_cases j <;> rfl
    · rw [BitVec.getLsbD_of_ge _ _ (by omega)]; simp; omega
  simp only [setlane, BitVec.getLsbD_or, BitVec.getLsbD_and, BitVec.getLsbD_not, BitVec.getLsbD_shiftLeft, hff,
    BitVec.getLsbD_setWidth]
  by_cases hi : i < 32
  · by_cases h1 : i < 8 * k.toNat
    · have h2 : ¬(8 * k.toNat ≤ i ∧ i < 8 * k.toNat + 8) := by omega
      simp [h1, h2, hi]
    · by_cases h2 : i < 8 * k.toNat + 8
      · have h3 : i - 8 * k.toNat < 8 := by omega
        have h4 : 8 * k.toNat ≤ i ∧ i < 8 * k.toNat + 8 := by omega
        have h5 : i - 8 * k.toNat < 32 := by omega
        simp only [h1, h3, h4, h5, hi, decide_true, decide_false, Bool.not_true, Bool.not_false, Bool.and_true,
          Bool.true_and, Bool.and_false, Bool.false_or, if_true, and_self]
      · have h3 : ¬(8 * k.toNat ≤ i ∧ i < 8 * k.toNat + 8) := by omega
        have h5 : ¬(i - 8 * k.toNat < 8) := by omega
        have h6 : b.getLsbD (i - 8 * k.toNat) = false := BitVec.getLsbD_of_ge b _ (by omega)
        simp only [h1, h3, h5, h6, hi, decide_true, decide_false, Bool.not_false, Bool.and_true, Bool.and_false,
          Bool.or_false, if_false]
  · simp [hi, BitVec.getLsbD_of_ge v i (by omega)]

/-- The bits of a lane. -/
theorem lane_getLsbD (v : Word) (k : Lane) (j : Nat) (hj : j < 8) :
    (lane v k).getLsbD j = v.getLsbD (8 * k.toNat + j) := by
  simp [lane, hj]

/-- A store to lane `k` is read in lane `k` and leaves the three other lanes alone. -/
theorem lane_setlane (v : Word) (k j : Lane) (b : Byte) :
    lane (setlane v k b) j = if j = k then b else lane v j := by
  have hk := k.isLt
  have hj := j.isLt
  apply BitVec.eq_of_getLsbD_eq
  intro i hi
  rw [lane_getLsbD _ _ _ hi, setlane_getLsbD]
  by_cases h : j = k
  · subst h
    simp only [if_true]
    rw [if_pos (by omega), show 8 * j.toNat + i - 8 * j.toNat = i by omega]
    simp; omega
  · have hne : j.toNat ≠ k.toNat := fun e => h (BitVec.eq_of_toNat_eq e)
    rw [if_neg (by omega), if_neg h, lane_getLsbD _ _ _ hi]

@[simp] theorem lane_setlane_same (v : Word) (k : Lane) (b : Byte) : lane (setlane v k b) k = b := by
  simp [lane_setlane]

theorem lane_setlane_ne (v : Word) {k j : Lane} (b : Byte) (h : j ≠ k) : lane (setlane v k b) j = lane v j := by
  simp [lane_setlane, h]

/-- A register is its four lanes. -/
theorem word_eq_of_lanes {u v : Word} (h : ∀ k : Lane, lane u k = lane v k) : u = v := by
  apply BitVec.eq_of_getLsbD_eq
  intro i hi
  have hk : (BitVec.ofNat 2 (i / 8)).toNat = i / 8 := by simp; omega
  have h1 := lane_getLsbD u (BitVec.ofNat 2 (i / 8)) (i % 8) (by omega)
  have h2 := lane_getLsbD v (BitVec.ofNat 2 (i / 8)) (i % 8) (by omega)
  rw [h, hk] at h1
  rw [hk] at h2
  rw [show 8 * (i / 8) + i % 8 = i by omega] at h1 h2
  rw [← h1, h2]

/-- Storing zero to a lane never increases the register (42_phase_reset.md R152). -/
theorem setlane_zero_le (v : Word) (k : Lane) : (setlane v k 0).toNat ≤ v.toNat := by
  have h : setlane v k 0 = v &&& ~~~(0xFF#32 <<< (8 * k.toNat)) := by simp [setlane]
  rw [h, BitVec.toNat_and]
  exact Nat.and_le_left

@[simp] theorem lane_zero (k : Lane) : lane 0 k = 0 := by simp [lane]

/-! ### The DAC code -/

theorem widen_toNat (b : Byte) : (widen b).toNat = b.toNat * 16 := by
  have h := b.isLt
  simp only [widen, BitVec.toNat_shiftLeft, BitVec.toNat_setWidth, Nat.shiftLeft_eq]
  omega

/-! ### The table indices -/

theorem quarter_lt {c : Config} (h : 0 < c.N) : quarter c < c.N := by unfold quarter; omega

theorem wrapIndex_eq (c : Config) (i : Nat) : wrapIndex c i = i % c.N := by
  unfold wrapIndex
  split
  · rfl
  · rw [Nat.mod_eq_of_lt (by omega)]

theorem wrapIndex_lt {c : Config} (h : 0 < c.N) (i : Nat) : wrapIndex c i < c.N := by
  rw [wrapIndex_eq]; exact Nat.mod_lt _ h

theorem quadIndex_lt {c : Config} (h : 0 < c.N) (i : Nat) : quadIndex c i < c.N := Nat.mod_lt _ h

/-- The phase after step 3 of TICK, as a number: the index reduced, the fraction kept. -/
theorem wrapPhase_toNat {c : Config} (hc : c.wf = true) (p : Word) :
    (wrapPhase c p).toNat = p.toNat / 65536 % c.N * 65536 + p.toNat % 65536 := by
  have hN := Config.wf.N_pos hc
  have hN2 := Config.wf.N_le hc
  unfold wrapPhase
  split
  · next h =>
    rw [join_toNat, fracPart_toNat, wrapIndex_eq, intPart_toNat, BitVec.toNat_ofNat]
    have hlt : p.toNat / 65536 % c.N < c.N := Nat.mod_lt _ hN
    rw [Nat.mod_eq_of_lt (b := 2 ^ 16) (by omega)]
  · next h =>
    rw [intPart_toNat] at h
    rw [Nat.mod_eq_of_lt (by omega)]
    omega

/-- The index of channel A. -/
theorem intPart_wrapPhase {c : Config} (hc : c.wf = true) (p : Word) :
    (intPart (wrapPhase c p)).toNat = p.toNat / 65536 % c.N := by
  rw [intPart_toNat, wrapPhase_toNat hc]
  omega

theorem fracPart_wrapPhase {c : Config} (hc : c.wf = true) (p : Word) :
    (fracPart (wrapPhase c p)).toNat = p.toNat % 65536 := by
  rw [fracPart_toNat, wrapPhase_toNat hc]
  omega

/-! ### The frequency mapping -/

/-- For a reading in range the exact product fits 32 bits (41_frequency_control.md R134). -/
theorem product_le {c : Config} (hc : c.wf = true) {r : Nat} (hr : r ≤ c.adcMax) :
    c.N * frequencyWord c r ≤ 4294967295 := by
  have h1 : clampReading r ≤ c.adcMax := Nat.max_le.mpr ⟨hr, Config.wf.adcMax_pos hc⟩
  calc c.N * frequencyWord c r = c.N * clampReading r * c.scale := by simp [frequencyWord, Nat.mul_assoc]
    _ ≤ c.N * c.adcMax * c.scale := Nat.mul_le_mul_right _ (Nat.mul_le_mul_left _ h1)
    _ ≤ _ := Config.wf.product_le hc

theorem fmap_lt {c : Config} (hc : c.wf = true) {r : Nat} (hr : r ≤ c.adcMax) : fmap c r < 4294967296 :=
  lt_of_le_of_lt (Nat.div_le_self _ _) (by have := product_le hc hr; omega)

/-- For a reading in range MAP's value is the mapping, exactly. -/
theorem increment_toNat {c : Config} (hc : c.wf = true) {r : Half} (hr : r.toNat ≤ c.adcMax) :
    (increment c r).toNat = fmap c r.toNat := by
  have h := fmap_lt hc hr
  unfold increment
  rw [if_pos h, BitVec.toNat_ofNat, Nat.mod_eq_of_lt h]

end Sys2Proof.Machine
end

