-- ==== Sys2Proof/Laws/State.lean ====
section
/-! SUPPORT. What each setter of State leaves in each field: the field written holds the value, every other field what
it held. With these no proof unfolds a record update. -/

namespace Sys2Proof.Machine

open Sys2Proof

section setPhase

variable (s : State) (v : Word)

@[simp] theorem State.setPhase_cfg : (s.setPhase v).cfg = s.cfg := rfl
@[simp] theorem State.setPhase_phase : (s.setPhase v).phase = v := rfl
@[simp] theorem State.setPhase_pdelta : (s.setPhase v).pdelta = s.pdelta := rfl
@[simp] theorem State.setPhase_stage : (s.setPhase v).stage = s.stage := rfl
@[simp] theorem State.setPhase_raw : (s.setPhase v).raw = s.raw := rfl
@[simp] theorem State.setPhase_rsf : (s.setPhase v).rsf = s.rsf := rfl
@[simp] theorem State.setPhase_te : (s.setPhase v).te = s.te := rfl
@[simp] theorem State.setPhase_tp : (s.setPhase v).tp = s.tp := rfl
@[simp] theorem State.setPhase_fgs : (s.setPhase v).fgs = s.fgs := rfl
@[simp] theorem State.setPhase_trace : (s.setPhase v).trace = s.trace := rfl
@[simp] theorem State.setPhase_opId : (s.setPhase v).opId = s.opId := rfl
@[simp] theorem State.setPhase_wtIdx : (s.setPhase v).wtIdx = s.wtIdx := rfl
@[simp] theorem State.setPhase_env : (s.setPhase v).env = s.env := rfl

end setPhase

section setPdelta

variable (s : State) (v : Word)

@[simp] theorem State.setPdelta_cfg : (s.setPdelta v).cfg = s.cfg := rfl
@[simp] theorem State.setPdelta_phase : (s.setPdelta v).phase = s.phase := rfl
@[simp] theorem State.setPdelta_pdelta : (s.setPdelta v).pdelta = v := rfl
@[simp] theorem State.setPdelta_stage : (s.setPdelta v).stage = s.stage := rfl
@[simp] theorem State.setPdelta_raw : (s.setPdelta v).raw = s.raw := rfl
@[simp] theorem State.setPdelta_rsf : (s.setPdelta v).rsf = s.rsf := rfl
@[simp] theorem State.setPdelta_te : (s.setPdelta v).te = s.te := rfl
@[simp] theorem State.setPdelta_tp : (s.setPdelta v).tp = s.tp := rfl
@[simp] theorem State.setPdelta_fgs : (s.setPdelta v).fgs = s.fgs := rfl
@[simp] theorem State.setPdelta_trace : (s.setPdelta v).trace = s.trace := rfl
@[simp] theorem State.setPdelta_opId : (s.setPdelta v).opId = s.opId := rfl
@[simp] theorem State.setPdelta_wtIdx : (s.setPdelta v).wtIdx = s.wtIdx := rfl
@[simp] theorem State.setPdelta_env : (s.setPdelta v).env = s.env := rfl

end setPdelta

section setStage

variable (s : State) (v : Word)

@[simp] theorem State.setStage_cfg : (s.setStage v).cfg = s.cfg := rfl
@[simp] theorem State.setStage_phase : (s.setStage v).phase = s.phase := rfl
@[simp] theorem State.setStage_pdelta : (s.setStage v).pdelta = s.pdelta := rfl
@[simp] theorem State.setStage_stage : (s.setStage v).stage = v := rfl
@[simp] theorem State.setStage_raw : (s.setStage v).raw = s.raw := rfl
@[simp] theorem State.setStage_rsf : (s.setStage v).rsf = s.rsf := rfl
@[simp] theorem State.setStage_te : (s.setStage v).te = s.te := rfl
@[simp] theorem State.setStage_tp : (s.setStage v).tp = s.tp := rfl
@[simp] theorem State.setStage_fgs : (s.setStage v).fgs = s.fgs := rfl
@[simp] theorem State.setStage_trace : (s.setStage v).trace = s.trace := rfl
@[simp] theorem State.setStage_opId : (s.setStage v).opId = s.opId := rfl
@[simp] theorem State.setStage_wtIdx : (s.setStage v).wtIdx = s.wtIdx := rfl
@[simp] theorem State.setStage_env : (s.setStage v).env = s.env := rfl

end setStage

section setRaw

variable (s : State) (v : Half)

@[simp] theorem State.setRaw_cfg : (s.setRaw v).cfg = s.cfg := rfl
@[simp] theorem State.setRaw_phase : (s.setRaw v).phase = s.phase := rfl
@[simp] theorem State.setRaw_pdelta : (s.setRaw v).pdelta = s.pdelta := rfl
@[simp] theorem State.setRaw_stage : (s.setRaw v).stage = s.stage := rfl
@[simp] theorem State.setRaw_raw : (s.setRaw v).raw = v := rfl
@[simp] theorem State.setRaw_rsf : (s.setRaw v).rsf = s.rsf := rfl
@[simp] theorem State.setRaw_te : (s.setRaw v).te = s.te := rfl
@[simp] theorem State.setRaw_tp : (s.setRaw v).tp = s.tp := rfl
@[simp] theorem State.setRaw_fgs : (s.setRaw v).fgs = s.fgs := rfl
@[simp] theorem State.setRaw_trace : (s.setRaw v).trace = s.trace := rfl
@[simp] theorem State.setRaw_opId : (s.setRaw v).opId = s.opId := rfl
@[simp] theorem State.setRaw_wtIdx : (s.setRaw v).wtIdx = s.wtIdx := rfl
@[simp] theorem State.setRaw_env : (s.setRaw v).env = s.env := rfl

end setRaw

section setRsf

variable (s : State) (v : Bool)

@[simp] theorem State.setRsf_cfg : (s.setRsf v).cfg = s.cfg := rfl
@[simp] theorem State.setRsf_phase : (s.setRsf v).phase = s.phase := rfl
@[simp] theorem State.setRsf_pdelta : (s.setRsf v).pdelta = s.pdelta := rfl
@[simp] theorem State.setRsf_stage : (s.setRsf v).stage = s.stage := rfl
@[simp] theorem State.setRsf_raw : (s.setRsf v).raw = s.raw := rfl
@[simp] theorem State.setRsf_rsf : (s.setRsf v).rsf = v := rfl
@[simp] theorem State.setRsf_te : (s.setRsf v).te = s.te := rfl
@[simp] theorem State.setRsf_tp : (s.setRsf v).tp = s.tp := rfl
@[simp] theorem State.setRsf_fgs : (s.setRsf v).fgs = s.fgs := rfl
@[simp] theorem State.setRsf_trace : (s.setRsf v).trace = s.trace := rfl
@[simp] theorem State.setRsf_opId : (s.setRsf v).opId = s.opId := rfl
@[simp] theorem State.setRsf_wtIdx : (s.setRsf v).wtIdx = s.wtIdx := rfl
@[simp] theorem State.setRsf_env : (s.setRsf v).env = s.env := rfl

end setRsf

section setTe

variable (s : State) (v : Bool)

@[simp] theorem State.setTe_cfg : (s.setTe v).cfg = s.cfg := rfl
@[simp] theorem State.setTe_phase : (s.setTe v).phase = s.phase := rfl
@[simp] theorem State.setTe_pdelta : (s.setTe v).pdelta = s.pdelta := rfl
@[simp] theorem State.setTe_stage : (s.setTe v).stage = s.stage := rfl
@[simp] theorem State.setTe_raw : (s.setTe v).raw = s.raw := rfl
@[simp] theorem State.setTe_rsf : (s.setTe v).rsf = s.rsf := rfl
@[simp] theorem State.setTe_te : (s.setTe v).te = v := rfl
@[simp] theorem State.setTe_tp : (s.setTe v).tp = s.tp := rfl
@[simp] theorem State.setTe_fgs : (s.setTe v).fgs = s.fgs := rfl
@[simp] theorem State.setTe_trace : (s.setTe v).trace = s.trace := rfl
@[simp] theorem State.setTe_opId : (s.setTe v).opId = s.opId := rfl
@[simp] theorem State.setTe_wtIdx : (s.setTe v).wtIdx = s.wtIdx := rfl
@[simp] theorem State.setTe_env : (s.setTe v).env = s.env := rfl

end setTe

section setTp

variable (s : State) (v : Bool)

@[simp] theorem State.setTp_cfg : (s.setTp v).cfg = s.cfg := rfl
@[simp] theorem State.setTp_phase : (s.setTp v).phase = s.phase := rfl
@[simp] theorem State.setTp_pdelta : (s.setTp v).pdelta = s.pdelta := rfl
@[simp] theorem State.setTp_stage : (s.setTp v).stage = s.stage := rfl
@[simp] theorem State.setTp_raw : (s.setTp v).raw = s.raw := rfl
@[simp] theorem State.setTp_rsf : (s.setTp v).rsf = s.rsf := rfl
@[simp] theorem State.setTp_te : (s.setTp v).te = s.te := rfl
@[simp] theorem State.setTp_tp : (s.setTp v).tp = v := rfl
@[simp] theorem State.setTp_fgs : (s.setTp v).fgs = s.fgs := rfl
@[simp] theorem State.setTp_trace : (s.setTp v).trace = s.trace := rfl
@[simp] theorem State.setTp_opId : (s.setTp v).opId = s.opId := rfl
@[simp] theorem State.setTp_wtIdx : (s.setTp v).wtIdx = s.wtIdx := rfl
@[simp] theorem State.setTp_env : (s.setTp v).env = s.env := rfl

end setTp

section setFgs

variable (s : State) (v : FgCode)

@[simp] theorem State.setFgs_cfg : (s.setFgs v).cfg = s.cfg := rfl
@[simp] theorem State.setFgs_phase : (s.setFgs v).phase = s.phase := rfl
@[simp] theorem State.setFgs_pdelta : (s.setFgs v).pdelta = s.pdelta := rfl
@[simp] theorem State.setFgs_stage : (s.setFgs v).stage = s.stage := rfl
@[simp] theorem State.setFgs_raw : (s.setFgs v).raw = s.raw := rfl
@[simp] theorem State.setFgs_rsf : (s.setFgs v).rsf = s.rsf := rfl
@[simp] theorem State.setFgs_te : (s.setFgs v).te = s.te := rfl
@[simp] theorem State.setFgs_tp : (s.setFgs v).tp = s.tp := rfl
@[simp] theorem State.setFgs_fgs : (s.setFgs v).fgs = v := rfl
@[simp] theorem State.setFgs_trace : (s.setFgs v).trace = s.trace := rfl
@[simp] theorem State.setFgs_opId : (s.setFgs v).opId = s.opId := rfl
@[simp] theorem State.setFgs_wtIdx : (s.setFgs v).wtIdx = s.wtIdx := rfl
@[simp] theorem State.setFgs_env : (s.setFgs v).env = s.env := rfl

end setFgs

section setTrace

variable (s : State) (v : List DacWrite)

@[simp] theorem State.setTrace_cfg : (s.setTrace v).cfg = s.cfg := rfl
@[simp] theorem State.setTrace_phase : (s.setTrace v).phase = s.phase := rfl
@[simp] theorem State.setTrace_pdelta : (s.setTrace v).pdelta = s.pdelta := rfl
@[simp] theorem State.setTrace_stage : (s.setTrace v).stage = s.stage := rfl
@[simp] theorem State.setTrace_raw : (s.setTrace v).raw = s.raw := rfl
@[simp] theorem State.setTrace_rsf : (s.setTrace v).rsf = s.rsf := rfl
@[simp] theorem State.setTrace_te : (s.setTrace v).te = s.te := rfl
@[simp] theorem State.setTrace_tp : (s.setTrace v).tp = s.tp := rfl
@[simp] theorem State.setTrace_fgs : (s.setTrace v).fgs = s.fgs := rfl
@[simp] theorem State.setTrace_trace : (s.setTrace v).trace = v := rfl
@[simp] theorem State.setTrace_opId : (s.setTrace v).opId = s.opId := rfl
@[simp] theorem State.setTrace_wtIdx : (s.setTrace v).wtIdx = s.wtIdx := rfl
@[simp] theorem State.setTrace_env : (s.setTrace v).env = s.env := rfl

end setTrace

section setOpId

variable (s : State) (v : Option OpWord)

@[simp] theorem State.setOpId_cfg : (s.setOpId v).cfg = s.cfg := rfl
@[simp] theorem State.setOpId_phase : (s.setOpId v).phase = s.phase := rfl
@[simp] theorem State.setOpId_pdelta : (s.setOpId v).pdelta = s.pdelta := rfl
@[simp] theorem State.setOpId_stage : (s.setOpId v).stage = s.stage := rfl
@[simp] theorem State.setOpId_raw : (s.setOpId v).raw = s.raw := rfl
@[simp] theorem State.setOpId_rsf : (s.setOpId v).rsf = s.rsf := rfl
@[simp] theorem State.setOpId_te : (s.setOpId v).te = s.te := rfl
@[simp] theorem State.setOpId_tp : (s.setOpId v).tp = s.tp := rfl
@[simp] theorem State.setOpId_fgs : (s.setOpId v).fgs = s.fgs := rfl
@[simp] theorem State.setOpId_trace : (s.setOpId v).trace = s.trace := rfl
@[simp] theorem State.setOpId_opId : (s.setOpId v).opId = v := rfl
@[simp] theorem State.setOpId_wtIdx : (s.setOpId v).wtIdx = s.wtIdx := rfl
@[simp] theorem State.setOpId_env : (s.setOpId v).env = s.env := rfl

end setOpId

section setWtIdx

variable (s : State) (v : List Half)

@[simp] theorem State.setWtIdx_cfg : (s.setWtIdx v).cfg = s.cfg := rfl
@[simp] theorem State.setWtIdx_phase : (s.setWtIdx v).phase = s.phase := rfl
@[simp] theorem State.setWtIdx_pdelta : (s.setWtIdx v).pdelta = s.pdelta := rfl
@[simp] theorem State.setWtIdx_stage : (s.setWtIdx v).stage = s.stage := rfl
@[simp] theorem State.setWtIdx_raw : (s.setWtIdx v).raw = s.raw := rfl
@[simp] theorem State.setWtIdx_rsf : (s.setWtIdx v).rsf = s.rsf := rfl
@[simp] theorem State.setWtIdx_te : (s.setWtIdx v).te = s.te := rfl
@[simp] theorem State.setWtIdx_tp : (s.setWtIdx v).tp = s.tp := rfl
@[simp] theorem State.setWtIdx_fgs : (s.setWtIdx v).fgs = s.fgs := rfl
@[simp] theorem State.setWtIdx_trace : (s.setWtIdx v).trace = s.trace := rfl
@[simp] theorem State.setWtIdx_opId : (s.setWtIdx v).opId = s.opId := rfl
@[simp] theorem State.setWtIdx_wtIdx : (s.setWtIdx v).wtIdx = v := rfl
@[simp] theorem State.setWtIdx_env : (s.setWtIdx v).env = s.env := rfl

end setWtIdx

section setEnv

variable (s : State) (v : Env)

@[simp] theorem State.setEnv_cfg : (s.setEnv v).cfg = s.cfg := rfl
@[simp] theorem State.setEnv_phase : (s.setEnv v).phase = s.phase := rfl
@[simp] theorem State.setEnv_pdelta : (s.setEnv v).pdelta = s.pdelta := rfl
@[simp] theorem State.setEnv_stage : (s.setEnv v).stage = s.stage := rfl
@[simp] theorem State.setEnv_raw : (s.setEnv v).raw = s.raw := rfl
@[simp] theorem State.setEnv_rsf : (s.setEnv v).rsf = s.rsf := rfl
@[simp] theorem State.setEnv_te : (s.setEnv v).te = s.te := rfl
@[simp] theorem State.setEnv_tp : (s.setEnv v).tp = s.tp := rfl
@[simp] theorem State.setEnv_fgs : (s.setEnv v).fgs = s.fgs := rfl
@[simp] theorem State.setEnv_trace : (s.setEnv v).trace = s.trace := rfl
@[simp] theorem State.setEnv_opId : (s.setEnv v).opId = s.opId := rfl
@[simp] theorem State.setEnv_wtIdx : (s.setEnv v).wtIdx = s.wtIdx := rfl
@[simp] theorem State.setEnv_env : (s.setEnv v).env = v := rfl

end setEnv

section init

variable (c : Config) (e : Env)

@[simp] theorem State.init_cfg : (State.init c e).cfg = c := rfl
@[simp] theorem State.init_phase : (State.init c e).phase = 0 := rfl
@[simp] theorem State.init_pdelta : (State.init c e).pdelta = 0 := rfl
@[simp] theorem State.init_stage : (State.init c e).stage = 0 := rfl
@[simp] theorem State.init_raw : (State.init c e).raw = 0 := rfl
@[simp] theorem State.init_rsf : (State.init c e).rsf = false := rfl
@[simp] theorem State.init_te : (State.init c e).te = false := rfl
@[simp] theorem State.init_tp : (State.init c e).tp = false := rfl
@[simp] theorem State.init_fgs : (State.init c e).fgs = 0 := rfl
@[simp] theorem State.init_trace : (State.init c e).trace = [] := rfl
@[simp] theorem State.init_opId : (State.init c e).opId = none := rfl
@[simp] theorem State.init_wtIdx : (State.init c e).wtIdx = [] := rfl
@[simp] theorem State.init_env : (State.init c e).env = e := rfl

end init

end Sys2Proof.Machine
end

