-- ==== Sys2Proof/Laws/Ops.lean ====
section
/-! SUPPORT. One lemma for each shared operation that says everything it can do; meanings and steps are reasoned about
through these. -/

namespace Sys2Proof.Machine

open Sys2Proof

/-! ### Outcomes -/

theorem configured_wf {s : State} (h : s.cfg.wf = true) (k : Result) : configured s k = k := by
  simp [configured, h]

/-- A well-formed configuration is what a next state needs (00_scope.md R6). -/
theorem configured_eq_next {s t : State} {k : Result} : configured s k = .next t ↔ s.cfg.wf = true ∧ k = .next t := by
  unfold configured
  split <;> simp_all

@[simp] theorem andThen_next (s : State) (k : State → Result) : andThen (.next s) k = k s := rfl

@[simp] theorem andThen_fault (r : Fault) (k : State → Result) : andThen (.fault r) k = .fault r := rfl

@[simp] theorem andThen_refused (r : Refusal) (k : State → Result) : andThen (.refused r) k = .refused r := rfl

theorem andThen_eq_next {o : Result} {k : State → Result} {t : State} :
    andThen o k = .next t ↔ ∃ s, o = .next s ∧ k s = .next t := by
  cases o <;> simp

/-! ### The address spaces -/

theorem memRead_of_lt {c : Config} {i : Nat} (h : i < c.N) : memRead c i = some (waveAt c i) := by simp [memRead, h]

theorem memRead_of_le {c : Config} {i : Nat} (h : c.N ≤ i) : memRead c i = none := by
  simp [memRead, Nat.not_lt.mpr h]

/-- STD's store goes to a lane of PDELTA (20_memory.md R54, R56). -/
theorem memWrite_stdAddr (k : Lane) (b : Byte) (s : State) :
    memWrite (stdAddr k) b s = s.setPdelta (setlane s.pdelta k b) := by
  have h : ∀ k : Lane, (stdAddr k).toNat ≤ 3 ∧ BitVec.ofNat 2 (stdAddr k).toNat = k := by decide
  rw [memWrite, if_pos (h k).1, (h k).2]

/-- CLP's store goes to a lane of PHASE (20_memory.md R54, R56). -/
theorem memWrite_clpAddr (k : Lane) (b : Byte) (s : State) :
    memWrite (clpAddr k) b s = s.setPhase (setlane s.phase k b) := by
  have h : ∀ k : Lane, ¬(clpAddr k).toNat ≤ 3 ∧ BitVec.ofNat 2 ((clpAddr k).toNat - 4) = k := by decide
  rw [memWrite, if_neg (h k).1, (h k).2]

theorem laneAt_stdAddr (s : State) (k : Lane) : laneAt s (stdAddr k) = lane s.pdelta k := by
  have h : ∀ k : Lane, (stdAddr k).toNat ≤ 3 ∧ BitVec.ofNat 2 (stdAddr k).toNat = k := by decide
  rw [laneAt, if_pos (h k).1, (h k).2]

theorem laneAt_clpAddr (s : State) (k : Lane) : laneAt s (clpAddr k) = lane s.phase k := by
  have h : ∀ k : Lane, ¬(clpAddr k).toNat ≤ 3 ∧ BitVec.ofNat 2 ((clpAddr k).toNat - 4) = k := by decide
  rw [laneAt, if_neg (h k).1, (h k).2]

/-- Every lane address is one of STD's or one of CLP's (20_memory.md R54). -/
theorem laneAddr_cases (a : LaneAddr) : (∃ k, a = stdAddr k) ∨ ∃ k, a = clpAddr k := by
  revert a; decide

/-! ### The ports -/

/-- What a sample's emission leaves: one index presented, one write on the trace, nothing else (R105, R107, R195). -/
theorem emitSample_of_lt {s : State} {i : Nat} (h : i < s.cfg.N) (ch : Channel) :
    emitSample i ch s =
      .next ((s.setWtIdx (s.wtIdx ++ [BitVec.ofNat 16 i])).setTrace (s.trace ++ [⟨widen (waveAt s.cfg i), ch⟩])) := by
  simp [emitSample, memRead_of_lt h, dacWrite, presentIndex]

/-- The environment's answer to a SAMP: the listed reading, which must be in range, or a free one in range; the other
inputs stay (R131, R196). -/
theorem drawReading_cases {c : Config} {e e' : Env} {r : Half} (hc : c.wf = true)
    (h : drawReading c e = some (r, e')) :
    r.toNat ≤ c.adcMax ∧ e'.turns = e.turns ∧ e'.levels = e.levels ∧ ∀ x ∈ e'.readings, x ∈ e.readings := by
  have hA := Config.wf.adcMax_le hc
  unfold drawReading at h
  split at h
  · next r' rs hr =>
    split at h
    · next hle =>
      simp only [Option.some.injEq, Prod.mk.injEq] at h
      obtain ⟨rfl, rfl⟩ := h
      exact ⟨hle, rfl, rfl, fun x hx => by rw [hr]; exact List.mem_cons_of_mem _ hx⟩
    · cases h
  · simp only [Option.some.injEq, Prod.mk.injEq] at h
    obtain ⟨rfl, rfl⟩ := h
    refine ⟨?_, rfl, rfl, fun x hx => hx⟩
    have := Nat.mod_lt (Config.freeReading e.draws) (show 0 < c.adcMax + 1 by omega)
    rw [BitVec.toNat_ofNat, Nat.mod_eq_of_lt (by omega)]
    omega

/-- A reading is always to be had where every listed one is in range (R131, R196). -/
theorem drawReading_isSome {c : Config} {e : Env} (h : ∀ r ∈ e.readings, r.toNat ≤ c.adcMax) :
    ∃ r e', drawReading c e = some (r, e') := by
  unfold drawReading
  split
  · next r rs hr => exact ⟨_, _, if_pos (h r (by simp [hr]))⟩
  · exact ⟨_, _, rfl⟩

end Sys2Proof.Machine
end

