-- ==== Sys2Proof/Laws/Exec.lean ====
section
/-! SUPPORT. Each operation in a well-formed configuration, as the shared operations it is made of; and what any
operation leaves alone. -/

namespace Sys2Proof.Machine

open Sys2Proof

variable {s t : State}

/-- An operation that answers a next state did so in a well-formed configuration (00_scope.md R6). -/
theorem exec_wf {i : Instr} (h : exec i s = .next t) : s.cfg.wf = true := by
  cases i <;> exact (configured_eq_next.mp h).1

theorem exec_start (h : s.cfg.wf = true) : exec .start s = .next (goTo 1 (enableTicks s)) := configured_wf h _

theorem exec_samp (h : s.cfg.wf = true) {r : Half} {e : Env} (hr : drawReading s.cfg s.env = some (r, e)) :
    exec .samp s = .next (goTo 2 ((s.setEnv e).setRaw r)) := by
  simp [exec, execSamp, configured_wf h, hr]

theorem exec_samp_cases (h : exec .samp s = .next t) :
    ∃ r e, drawReading s.cfg s.env = some (r, e) ∧ t = goTo 2 ((s.setEnv e).setRaw r) := by
  obtain ⟨-, h⟩ := configured_eq_next.mp h
  split at h
  · next r e hr => exact ⟨r, e, hr, by simpa using h.symm⟩
  · cases h

theorem exec_map (h : s.cfg.wf = true) : exec .map s = .next (goTo 3 (s.setStage (increment s.cfg s.raw))) :=
  configured_wf h _

theorem exec_di (h : s.cfg.wf = true) : exec .di s = .next (advance (enterCritical s)) := configured_wf h _

theorem exec_ei (h : s.cfg.wf = true) : exec .ei s = .next (advance (leaveCritical s)) := configured_wf h _

theorem exec_std (h : s.cfg.wf = true) (k : Lane) :
    exec (.std k) s = .next (advance (s.setPdelta (setlane s.pdelta k (lane s.stage k)))) := by
  simp [exec, execStd, configured_wf h, memWrite_stdAddr]

theorem exec_clp (h : s.cfg.wf = true) (k : Lane) :
    exec (.clp k) s = .next (advance (s.setPhase (setlane s.phase k 0))) := by
  simp [exec, execClp, configured_wf h, memWrite_clpAddr]

theorem exec_rsts (h : s.cfg.wf = true) :
    exec .rsts s = .next (goTo (pollSuccessor (drawLevel s.env).1)
      (latchLevel (drawLevel s.env).1 (s.setEnv (drawLevel s.env).2))) := configured_wf h _

theorem exec_dly (h : s.cfg.wf = true) : exec .dly s = .next (goTo 1 s) := configured_wf h _

/-- The phase a TICK leaves (40_engine_tick.md R101 to R103). -/
abbrev tickPhase (s : State) : Word := wrapPhase s.cfg (s.phase + s.pdelta)

/-- The index of channel A in a TICK from `s` (R103). -/
abbrev tickIdxA (s : State) : Nat := (intPart (tickPhase s)).toNat

/-- The index of channel B in a TICK from `s` (R106). -/
abbrev tickIdxB (s : State) : Nat := quadIndex s.cfg (tickIdxA s)

/-- The DAC writes of a TICK from `s` (R108, R109). -/
def tickWrites (s : State) : List DacWrite :=
  if s.cfg.dual then [⟨widen (waveAt s.cfg (tickIdxA s)), .A⟩, ⟨widen (waveAt s.cfg (tickIdxB s)), .B⟩]
  else [⟨widen (waveAt s.cfg (tickIdxA s)), .A⟩]

/-- The indices a TICK from `s` presents on `wt_idx` (R52). -/
def tickReads (s : State) : List Half :=
  if s.cfg.dual then [BitVec.ofNat 16 (tickIdxA s), BitVec.ofNat 16 (tickIdxB s)]
  else [BitVec.ofNat 16 (tickIdxA s)]

/-- Both indices of a TICK are inside the table (R112). -/
theorem tickIdxA_lt (h : s.cfg.wf = true) : tickIdxA s < s.cfg.N := by
  rw [tickIdxA, intPart_wrapPhase h]
  exact Nat.mod_lt _ (Config.wf.N_pos h)

/-- TICK, whole: PHASE, the trace, the indices presented and TP change, and nothing else (R100). -/
theorem exec_tick (h : s.cfg.wf = true) :
    exec .tick s = .next { s with
      phase := tickPhase s, trace := s.trace ++ tickWrites s, wtIdx := s.wtIdx ++ tickReads s, tp := false } := by
  have hA := tickIdxA_lt h
  have hB : tickIdxB s < s.cfg.N := quadIndex_lt (Config.wf.N_pos h) _
  show execTick s = _
  have eA := emitSample_of_lt (s := s.setPhase (tickPhase s)) hA .A
  have eB := emitSample_of_lt (s := ((s.setPhase (tickPhase s)).setWtIdx
    (s.wtIdx ++ [BitVec.ofNat 16 (tickIdxA s)])).setTrace (s.trace ++ [⟨widen (waveAt s.cfg (tickIdxA s)), .A⟩])) hB .B
  unfold execTick
  rw [configured_wf h]
  show andThen (emitSample (tickIdxA s) .A (s.setPhase (tickPhase s))) _ = _
  rw [eA, andThen_next]
  unfold emitQuadrature
  cases hd : s.cfg.dual
  · simp only [State.setTrace_cfg, State.setWtIdx_cfg, State.setPhase_cfg, hd, tickWrites, tickReads]
    rfl
  · simp only [State.setTrace_cfg, State.setWtIdx_cfg, State.setPhase_cfg, hd, tickWrites, tickReads]
    refine (congrArg (andThen · _) eB).trans ?_
    simp [leaveTick, State.setTp, State.setTrace, State.setWtIdx, State.setPhase]

/-- An operation's effect on one field, proved operation by operation: what remains is to look at the state each leaves. -/
theorem exec_cases {P : Instr → State → State → Prop}
    (hstart : ∀ s, P .start s (goTo 1 (enableTicks s)))
    (hsamp : ∀ s r e, s.cfg.wf = true → drawReading s.cfg s.env = some (r, e) →
      P .samp s (goTo 2 ((s.setEnv e).setRaw r)))
    (hmap : ∀ s, P .map s (goTo 3 (s.setStage (increment s.cfg s.raw))))
    (hdi : ∀ s, P .di s (advance (enterCritical s))) (hei : ∀ s, P .ei s (advance (leaveCritical s)))
    (hstd : ∀ k s, P (.std k) s (advance (s.setPdelta (setlane s.pdelta k (lane s.stage k)))))
    (hclp : ∀ k s, P (.clp k) s (advance (s.setPhase (setlane s.phase k 0))))
    (hrsts : ∀ s, P .rsts s (goTo (pollSuccessor (drawLevel s.env).1)
      (latchLevel (drawLevel s.env).1 (s.setEnv (drawLevel s.env).2))))
    (hdly : ∀ s, P .dly s (goTo 1 s))
    (htick : ∀ s, s.cfg.wf = true → P .tick s { s with
      phase := tickPhase s, trace := s.trace ++ tickWrites s, wtIdx := s.wtIdx ++ tickReads s, tp := false })
    {i : Instr} (h : exec i s = .next t) : P i s t := by
  have hw := exec_wf h
  cases i
  case samp => obtain ⟨r, e, hr, rfl⟩ := exec_samp_cases h; exact hsamp s r e hw hr
  case start => rw [exec_start hw] at h; cases h; exact hstart s
  case map => rw [exec_map hw] at h; cases h; exact hmap s
  case di => rw [exec_di hw] at h; cases h; exact hdi s
  case ei => rw [exec_ei hw] at h; cases h; exact hei s
  case std k => rw [exec_std hw] at h; cases h; exact hstd k s
  case clp k => rw [exec_clp hw] at h; cases h; exact hclp k s
  case rsts => rw [exec_rsts hw] at h; cases h; exact hrsts s
  case dly => rw [exec_dly hw] at h; cases h; exact hdly s
  case tick => rw [exec_tick hw] at h; cases h; exact htick s hw

/-! What the operations do, field by field: each lemma says for every operation at once what one field holds after it. -/

section fields

@[simp] theorem enterCritical_eq (s : State) : enterCritical s = s.setTe (s.te && !s.cfg.fgGuard) := by
  cases hg : s.cfg.fgGuard <;> simp [enterCritical, hg, State.setTe]

@[simp] theorem leaveCritical_eq (s : State) : leaveCritical s = s.setTe (s.te || s.cfg.fgGuard) := by
  cases hg : s.cfg.fgGuard <;> simp [leaveCritical, hg, State.setTe]

/-- FGS after an operation, from FGS before it and RSF after it (43_sequencing.md R170). -/
def fgsAfter (i : Instr) (f : FgCode) (high : Bool) : FgCode :=
  match i with
  | .start => 1
  | .samp => 2
  | .map => 3
  | .di | .ei | .std _ | .clp _ => f + 1
  | .rsts => if high then 10 else 16
  | .dly => 1
  | .tick => f

/-- TE after an operation (R160, R162 to R164). -/
def teAfter (i : Instr) (guard te : Bool) : Bool :=
  match i with
  | .start => true
  | .di => te && !guard
  | .ei => te || guard
  | .samp | .map | .std _ | .clp _ | .rsts | .dly | .tick => te

/-- PHASE after an operation (R100, R152): TICK and CLP write it. -/
def phaseAfter (i : Instr) (s : State) : Word :=
  match i with
  | .clp k => setlane s.phase k 0
  | .tick => tickPhase s
  | .start | .samp | .map | .di | .ei | .std _ | .rsts | .dly => s.phase

/-- PDELTA after an operation (R137): STD alone writes it. -/
def pdeltaAfter (i : Instr) (s : State) : Word :=
  match i with
  | .std k => setlane s.pdelta k (lane s.stage k)
  | .start | .samp | .map | .di | .ei | .clp _ | .rsts | .dly | .tick => s.pdelta

/-- STAGE after an operation (R134): MAP alone writes it. -/
def stageAfter (i : Instr) (s : State) : Word :=
  match i with
  | .map => increment s.cfg s.raw
  | .start | .samp | .di | .ei | .std _ | .clp _ | .rsts | .dly | .tick => s.stage

/-- What an operation appends to the output trace (R108): TICK alone writes to the DAC. -/
def writesOf (i : Instr) (s : State) : List DacWrite :=
  match i with
  | .tick => tickWrites s
  | .start | .samp | .map | .di | .ei | .std _ | .clp _ | .rsts | .dly => []

variable {i : Instr}

/-- No operation changes the configuration, nor shows anything on `op_id` (00_scope.md R5). -/
theorem exec_cfg (h : exec i s = .next t) : t.cfg = s.cfg ∧ t.opId = s.opId := by
  refine exec_cases (P := fun _ s t => t.cfg = s.cfg ∧ t.opId = s.opId) ?_ ?_ ?_ ?_ ?_ ?_ ?_ ?_ ?_ ?_ h <;> intros <;>
    simp [goTo, advance, enableTicks, latchLevel]

theorem exec_fgs (h : exec i s = .next t) : t.fgs = fgsAfter i s.fgs t.rsf := by
  refine exec_cases (P := fun i s t => t.fgs = fgsAfter i s.fgs t.rsf) ?_ ?_ ?_ ?_ ?_ ?_ ?_ ?_ ?_ ?_ h <;> intros <;>
    simp [goTo, advance, latchLevel, fgsAfter, pollSuccessor]

theorem exec_te (h : exec i s = .next t) : t.te = teAfter i s.cfg.fgGuard s.te := by
  refine exec_cases (P := fun i s t => t.te = teAfter i s.cfg.fgGuard s.te) ?_ ?_ ?_ ?_ ?_ ?_ ?_ ?_ ?_ ?_ h <;> intros <;>
    simp [goTo, advance, enableTicks, latchLevel, teAfter]

/-- TICK clears TP and no other operation touches it (R186). -/
theorem exec_tp (h : exec i s = .next t) : t.tp = (s.tp && i != .tick) := by
  refine exec_cases (P := fun i s t => t.tp = (s.tp && i != .tick)) ?_ ?_ ?_ ?_ ?_ ?_ ?_ ?_ ?_ ?_ h <;> intros <;>
    simp [goTo, advance, enableTicks, latchLevel]

theorem exec_phase (h : exec i s = .next t) : t.phase = phaseAfter i s := by
  refine exec_cases (P := fun i s t => t.phase = phaseAfter i s) ?_ ?_ ?_ ?_ ?_ ?_ ?_ ?_ ?_ ?_ h <;> intros <;>
    simp [goTo, advance, enableTicks, latchLevel, phaseAfter]

theorem exec_pdelta (h : exec i s = .next t) : t.pdelta = pdeltaAfter i s := by
  refine exec_cases (P := fun i s t => t.pdelta = pdeltaAfter i s) ?_ ?_ ?_ ?_ ?_ ?_ ?_ ?_ ?_ ?_ h <;> intros <;>
    simp [goTo, advance, enableTicks, latchLevel, pdeltaAfter]

theorem exec_stage (h : exec i s = .next t) : t.stage = stageAfter i s := by
  refine exec_cases (P := fun i s t => t.stage = stageAfter i s) ?_ ?_ ?_ ?_ ?_ ?_ ?_ ?_ ?_ ?_ h <;> intros <;>
    simp [goTo, advance, enableTicks, latchLevel, stageAfter]

/-- SAMP leaves a reading in range in RAW, and no other operation writes RAW (R131). -/
theorem exec_raw (h : exec i s = .next t) : (i = .samp ∧ t.raw.toNat ≤ s.cfg.adcMax) ∨ (i ≠ .samp ∧ t.raw = s.raw) := by
  refine exec_cases (P := fun i s t => (i = .samp ∧ t.raw.toNat ≤ s.cfg.adcMax) ∨ (i ≠ .samp ∧ t.raw = s.raw))
    ?_ ?_ ?_ ?_ ?_ ?_ ?_ ?_ ?_ ?_ h <;> intros
  case refine_2 hw hr => exact .inl ⟨rfl, (drawReading_cases hw hr).1⟩
  all_goals simp [goTo, advance, enableTicks, latchLevel]

theorem exec_trace (h : exec i s = .next t) : t.trace = s.trace ++ writesOf i s := by
  refine exec_cases (P := fun i s t => t.trace = s.trace ++ writesOf i s) ?_ ?_ ?_ ?_ ?_ ?_ ?_ ?_ ?_ ?_ h <;> intros <;>
    simp [goTo, advance, enableTicks, latchLevel, writesOf]

end fields

end Sys2Proof.Machine
end

