-- ==== Sys2Proof/Laws/PerInstr.lean ====
section
/-! SUPPORT. The family TableRow: the word the encoder gives an operation lies in that operation's row of the opcode
table (spec/opcode_table.json, "match" and "mask"; 30_encoding.md R82). -/

namespace Sys2Proof.Laws.TableRow

open Sys2Proof

/-- The "mask" and the "match" of an operation's row of the opcode table. -/
def row (i : Instr) : OpWord × OpWord :=
  match i with
  | .start => (0x3F, 0x00)
  | .samp => (0x3F, 0x04)
  | .map => (0x3F, 0x08)
  | .di => (0x3F, 0x0C)
  | .ei => (0x3F, 0x10)
  | .std _ => (0x3C, 0x14)
  | .clp _ => (0x3C, 0x18)
  | .rsts => (0x3F, 0x1C)
  | .dly => (0x3F, 0x20)
  | .tick => (0x3F, 0x24)

/-- The encoded word agrees with the row wherever the row fixes a bit. -/
def Statement (i : Instr) : Prop := encode i &&& (row i).1 = (row i).2

theorem start : Statement .start := by unfold Statement; decide
theorem samp : Statement .samp := by unfold Statement; decide
theorem map : Statement .map := by unfold Statement; decide
theorem di : Statement .di := by unfold Statement; decide
theorem ei : Statement .ei := by unfold Statement; decide
theorem std (k : Lane) : Statement (.std k) := by unfold Statement; revert k; decide
theorem clp (k : Lane) : Statement (.clp k) := by unfold Statement; revert k; decide
theorem rsts : Statement .rsts := by unfold Statement; decide
theorem dly : Statement .dly := by unfold Statement; decide
theorem tick : Statement .tick := by unfold Statement; decide

end Sys2Proof.Laws.TableRow
end

