-- ==== Sys2Proof/Laws/Step.lean ====
section
/-! SUPPORT. Everything a step can do, once: the inversion of a step into the environment's events and the block's
operations, and of the block's step into the rows of the foreground program. -/

namespace Sys2Proof.Machine

open Sys2Proof

variable {s t : State} {ex : Instr → State → Result}

section beginStep

variable (op : Option OpWord) (s : State)

@[simp] theorem beginStep_cfg : (beginStep op s).cfg = s.cfg := rfl
@[simp] theorem beginStep_phase : (beginStep op s).phase = s.phase := rfl
@[simp] theorem beginStep_pdelta : (beginStep op s).pdelta = s.pdelta := rfl
@[simp] theorem beginStep_stage : (beginStep op s).stage = s.stage := rfl
@[simp] theorem beginStep_raw : (beginStep op s).raw = s.raw := rfl
@[simp] theorem beginStep_rsf : (beginStep op s).rsf = s.rsf := rfl
@[simp] theorem beginStep_te : (beginStep op s).te = s.te := rfl
@[simp] theorem beginStep_tp : (beginStep op s).tp = s.tp := rfl
@[simp] theorem beginStep_fgs : (beginStep op s).fgs = s.fgs := rfl
@[simp] theorem beginStep_trace : (beginStep op s).trace = s.trace := rfl
@[simp] theorem beginStep_opId : (beginStep op s).opId = op := rfl
@[simp] theorem beginStep_wtIdx : (beginStep op s).wtIdx = [] := rfl
@[simp] theorem beginStep_env : (beginStep op s).env = popTurn s.env := rfl

end beginStep

/-- Reading the environment's turn takes no reading and no level. -/
@[simp] theorem popTurn_readings (e : Env) : (popTurn e).readings = e.readings := by unfold popTurn; split <;> rfl

@[simp] theorem popTurn_levels (e : Env) : (popTurn e).levels = e.levels := by unfold popTurn; split <;> rfl

/-- A step of the whole, inverted: a timer event, a block reset, or an operation of the block. -/
theorem stepWith_cases (h : stepWith ex s = .next t) : s.cfg.wf = true ∧
    ((turnOf s = .timer ∧ s.tp = false ∧ t = (beginStep none s).setTp true) ∨
     (turnOf s = .blockReset ∧ t = State.init s.cfg (popTurn s.env)) ∨
     (turnOf s = .run ∧ ∃ w i, nextWord s = some w ∧ decode w = .ok i ∧ ex i (beginStep (some w) s) = .next t)) := by
  obtain ⟨hw, h⟩ := configured_eq_next.mp h
  refine ⟨hw, ?_⟩
  split at h
  · next ht =>
    refine .inl ⟨ht, ?_⟩
    unfold timerEvent at h
    split at h
    · cases h
    · next hp => exact ⟨by simpa using hp, by simpa [latchTick] using h.symm⟩
  · next ht => exact .inr (.inl ⟨ht, by simpa [blockReset] using h.symm⟩)
  · next ht =>
    refine .inr (.inr ⟨ht, ?_⟩)
    unfold blockStep at h
    split at h
    · cases h
    · next w hn =>
      split at h
      · next i hd => exact ⟨w, i, hn, hd, h⟩
      · cases h

theorem stepWith_run (hw : s.cfg.wf = true) (ht : turnOf s = .run) : stepWith ex s = blockStep ex s := by
  simp [stepWith, configured_wf hw, ht]

/-- The block's step performs the operation of the word that is selected. -/
theorem blockStep_eq {w : OpWord} {i : Instr} (hn : nextWord s = some w) (hd : decode w = .ok i) :
    blockStep ex s = ex i (beginStep (some w) s) := by
  simp [blockStep, hn, hd]

/-- The operation the hardwired program binds to each sequencer state (43_sequencing.md R170). -/
def programInstr (f : FgCode) : Option Instr :=
  match f.toNat with
  | 0 => some .start
  | 1 => some .samp
  | 2 => some .map
  | 3 => some .di
  | 4 => some (.std 0)
  | 5 => some (.std 1)
  | 6 => some (.std 2)
  | 7 => some (.std 3)
  | 8 => some .ei
  | 9 => some .rsts
  | 10 => some .di
  | 11 => some (.clp 0)
  | 12 => some (.clp 1)
  | 13 => some (.clp 2)
  | 14 => some (.clp 3)
  | 15 => some .ei
  | 16 => some .dly
  | _ => none

/-- The program's words are those of its operations. -/
theorem program_words (f : FgCode) : foregroundProgram[f.toNat]? = (programInstr f).map encode := by
  revert f; decide

/-- The word of every operation decodes to it; the one fact about encodings that inverting a step needs. -/
theorem decode_programInstr (f : FgCode) (i : Instr) (h : programInstr f = some i) : decode (encode i) = .ok i := by
  have hall : ∀ f : FgCode, ∀ i ∈ programInstr f, decode (encode i) = .ok i := by decide
  exact hall f i h

/-- What the block performs: TICK when one is due, otherwise the row of the program that FGS names (R170, R185). -/
theorem nextWord_cases {w : OpWord} {i : Instr} (hn : nextWord s = some w) (hd : decode w = .ok i) :
    (tickDue s = true ∧ w = tickWord ∧ i = .tick) ∨
    (tickDue s = false ∧ programInstr s.fgs = some i ∧ w = encode i) := by
  unfold nextWord at hn
  split at hn
  · next hdue =>
    cases hn
    exact .inl ⟨hdue, rfl, by simpa [decode, tickWord, opcOf, laneOf, decodePlain] using hd.symm⟩
  · next hdue =>
    refine .inr ⟨by simpa using hdue, ?_⟩
    rw [program_words] at hn
    obtain ⟨j, hj, rfl⟩ := Option.map_eq_some_iff.mp hn
    rw [decode_programInstr _ _ hj] at hd
    cases hd
    exact ⟨hj, rfl⟩

theorem nextWord_tick (h : tickDue s = true) : nextWord s = some tickWord := by simp [nextWord, h]

theorem decode_tickWord : decode tickWord = .ok .tick := by decide

theorem nextWord_program {i : Instr} (h : tickDue s = false) (hi : programInstr s.fgs = some i) :
    nextWord s = some (encode i) := by
  simp [nextWord, h, program_words, hi]

/-- A code names an operation exactly when it is one of the seventeen (R30). -/
theorem programInstr_isSome (f : FgCode) : (programInstr f).isSome = decide (f.toNat ≤ 16) := by
  revert f; decide

/-- Every state of the sequencer that names an operation, one by one. -/
theorem programInstr_cases {f : FgCode} {i : Instr} (h : programInstr f = some i) :
    (f = 0 ∧ i = .start) ∨ (f = 1 ∧ i = .samp) ∨ (f = 2 ∧ i = .map) ∨ (f = 3 ∧ i = .di) ∨
    (f = 4 ∧ i = .std 0) ∨ (f = 5 ∧ i = .std 1) ∨ (f = 6 ∧ i = .std 2) ∨ (f = 7 ∧ i = .std 3) ∨
    (f = 8 ∧ i = .ei) ∨ (f = 9 ∧ i = .rsts) ∨ (f = 10 ∧ i = .di) ∨ (f = 11 ∧ i = .clp 0) ∨
    (f = 12 ∧ i = .clp 1) ∨ (f = 13 ∧ i = .clp 2) ∨ (f = 14 ∧ i = .clp 3) ∨ (f = 15 ∧ i = .ei) ∨
    (f = 16 ∧ i = .dly) := by
  have hall : ∀ f : FgCode, ∀ i ∈ programInstr f,
      (f = 0 ∧ i = .start) ∨ (f = 1 ∧ i = .samp) ∨ (f = 2 ∧ i = .map) ∨ (f = 3 ∧ i = .di) ∨
      (f = 4 ∧ i = .std 0) ∨ (f = 5 ∧ i = .std 1) ∨ (f = 6 ∧ i = .std 2) ∨ (f = 7 ∧ i = .std 3) ∨
      (f = 8 ∧ i = .ei) ∨ (f = 9 ∧ i = .rsts) ∨ (f = 10 ∧ i = .di) ∨ (f = 11 ∧ i = .clp 0) ∨
      (f = 12 ∧ i = .clp 1) ∨ (f = 13 ∧ i = .clp 2) ∨ (f = 14 ∧ i = .clp 3) ∨ (f = 15 ∧ i = .ei) ∨
      (f = 16 ∧ i = .dly) := by decide
  exact hall f i h

end Sys2Proof.Machine
end

