-- ==== Sys2Proof/Tests/Slice0.lean ====
section
/-! SUPPORT. The model's own tests. Every expected value is a vector of 95_test_vectors.md (its id is named) or is worked
out by hand from a rule. After them, one witness for the hypotheses of each statement of Obligations.lean. -/

namespace Sys2Proof.Machine.Tests

open Sys2Proof Sys2Proof.Machine

/-- The fixture `WAVE[i] = i` (95_test_vectors.md, D19). -/
def ramp : List Byte := (List.range 256).map fun i => BitVec.ofNat 8 i

/-- The default configuration on the fixture. -/
def fixture : Config := Config.defaultWith ramp

/-- The table of 100 entries of vectors T16 and T17. -/
def table100 : Config := { fixture with N := 100, timerRate := 100, scale := 1 }

/-- The eight-entry configuration of program P5 and of the second MAP table. -/
def table8 : Config where
  N := 8
  wave := [10, 20, 30, 40, 50, 60, 70, 80]
  timerRate := 8
  scale := 1
  adcMax := 1023
  dual := true
  fgGuard := true

/-- The reset state of a configuration, moved to sequencer state `f` with TE as the program has it there. -/
def place (c : Config) (f : FgCode) (turns : List Turn) : State :=
  { State.init c { Env.empty with turns := turns } with fgs := f, te := teAt f }

/-- A field of the next state. -/
def look {α : Type} (r : Result) (f : State → α) : Option α :=
  match r with
  | .next s => some (f s)
  | .fault _ => none
  | .refused _ => none

/-- A result with a next state to look at is one. -/
theorem runs {r : Result} (h : (look r (·.fgs)).isSome = true) : ∃ t, r = .next t := by
  cases r with
  | next s => exact ⟨s, rfl⟩
  | fault _ => cases h
  | refused _ => cases h

/-! ### Decoding: words written out from 30_encoding.md R82 -/

/-- E1 to E10: one word of every operation, `opc` in bits 5:2 and `k` in bits 1:0. -/
theorem test_decode_words :
    decode 0b000000 = .ok .start ∧ decode 0b000100 = .ok .samp ∧ decode 0b001000 = .ok .map ∧
    decode 0b001100 = .ok .di ∧ decode 0b010000 = .ok .ei ∧ decode 0b010110 = .ok (.std 2) ∧
    decode 0b011011 = .ok (.clp 3) ∧ decode 0b011100 = .ok .rsts ∧ decode 0b100000 = .ok .dly ∧
    decode 0b100100 = .ok .tick := ⟨rfl, rfl, rfl, rfl, rfl, rfl, rfl, rfl, rfl, rfl⟩

/-- E11 to E15: reserved words, each rejected by name. -/
theorem test_decode_reserved :
    decode 0x01 = .error .reservedLane ∧ decode 0x1D = .error .reservedLane ∧ decode 0x25 = .error .reservedLane ∧
    decode 0x28 = .error .reservedOpcode ∧ decode 0x3F = .error .reservedOpcode := ⟨rfl, rfl, rfl, rfl, rfl⟩

/-- The words of R82, in the order of its table, are the encoder's. -/
theorem test_encode_words :
    [Instr.start, .samp, .map, .di, .ei, .std 0, .std 1, .std 2, .std 3, .clp 0, .clp 1, .clp 2, .clp 3, .rsts, .dly,
      .tick].map encode =
    [0x00, 0x04, 0x08, 0x0C, 0x10, 0x14, 0x15, 0x16, 0x17, 0x18, 0x19, 0x1A, 0x1B, 0x1C, 0x20, 0x24] := by decide

/-- A number with a bit above the word is no word (log 12). -/
theorem test_decode_wide : decodeNat 64 = .error .notAWord ∧ decodeTableWord 8 64 = none := ⟨rfl, rfl⟩

/-- Every legal word is run by the step after withFetchWord, from reset, and no reserved word is. -/
theorem test_fetch : ∀ w < 64, (decodeTableWord 8 w).isSome =
    decide (look (step (State.reset.withFetchWord 8 w)) (·.opId) = some (some (BitVec.ofNat 6 w))) := by decide +kernel

/-- R86: `STD 2`, and RSTS with its successor annotation, as program P1 writes it. -/
theorem test_print : printInstr (.std 2) = "STD 2" ∧ printInstr .tick = "TICK" ∧
    printRsts "clr" "dly" = "RSTS -> clr if RSF else dly" := by decide +kernel

/-- R73: A = 0, B = 1. -/
theorem test_channel : channelBit .A = 0 ∧ channelBit .B = 1 := by decide

/-! ### Well-formedness: an ill-formed term for each check -/

/-- W1 and W6. -/
theorem test_wf_accepts : fixture.wf = true ∧ table100.wf = true ∧ table8.wf = true ∧
    Config.wf { Config.default with N := 65536, scale := 1, timerRate := 1 } = true := by decide

/-- WF1: W2 and W7. -/
theorem test_wf1 : Config.wf1 { Config.default with N := 0 } = false ∧ Config.wf { Config.default with N := 0 } = false ∧
    Config.wf1 { Config.default with N := 65537 } = false ∧
    Config.wf { Config.default with N := 65537, scale := 1 } = false := by decide

/-- WF2: W3. -/
theorem test_wf2 : Config.wf2 { Config.default with timerRate := 0 } = false ∧
    Config.wf { Config.default with timerRate := 0 } = false := by decide

/-- WF3. -/
theorem test_wf3 : Config.wf3 { Config.default with scale := 0 } = false ∧
    Config.wf { Config.default with scale := 0 } = false := by decide

/-- WF4, both bounds. -/
theorem test_wf4 : Config.wf4 { Config.default with adcMax := 0 } = false ∧
    Config.wf { Config.default with adcMax := 0 } = false ∧
    Config.wf4 { Config.default with adcMax := 65536 } = false ∧
    Config.wf { Config.default with N := 1, adcMax := 65536 } = false := by decide

/-- WF5: W4. -/
theorem test_wf5 : Config.wf5 { Config.default with adcMax := 4095 } = false ∧
    Config.wf { Config.default with adcMax := 4095 } = false := by decide

/-- WF6: W5. -/
theorem test_wf6 : Config.wf6 { Config.default with scale := 40 } = false ∧
    Config.wf { Config.default with scale := 40 } = false := by decide

/-- U7: a reserved word is not legal, and a program that holds one is refused. -/
theorem test_program_refused : OpWord.legal 0x01 = false ∧ OpWord.legal 0x28 = false ∧ OpWord.legal 0x1B = true ∧
    programLegal [0x00, 0x04, 0x3F] = false ∧ programLegal [0x00, 0x04, 0x08] = true := by decide

/-- An ill-formed configuration is refused at a step (U2). -/
theorem test_step_refuses : look (step (State.init { Config.default with timerRate := 0 } Env.empty)) (·.fgs) = none := by
  decide

/-! ### The operations -/

/-- Q3. -/
theorem test_start : look (exec .start State.reset) (fun t => (t.te, t.fgs, t.tp)) = some (true, 1, false) := by decide

/-- A2, and A3 with the next reading left for the next SAMP. -/
theorem test_samp :
    look (exec .samp { place fixture 1 [] with env := { Env.empty with readings := [512] } })
      (fun t => (t.raw, t.fgs)) = some (0x0200, 2) ∧
    look (exec .samp { place fixture 1 [] with env := { Env.empty with readings := [1023, 7] } })
      (fun t => (t.raw, t.env.readings)) = some (0x03FF, [7]) := by decide

/-- U5: a reading above ADC_MAX is refused. -/
theorem test_samp_refuses :
    look (exec .samp { place fixture 1 [] with env := { Env.empty with readings := [1024] } }) (·.raw) = none := by decide

/-- M1, M4 and M10. -/
theorem test_map : look (exec .map (place fixture 2 [])) (·.stage) = some 0x00000120 ∧
    look (exec .map { place fixture 2 [] with raw := 3 }) (·.stage) = some 0x00000361 ∧
    look (exec .map { place fixture 2 [] with raw := 1023 }) (·.stage) = some 0x0004805F := by decide

/-- The second MAP table, `RAW = 5`; FGS becomes 3. -/
theorem test_map_table8 : look (exec .map { place table8 2 [] with raw := 5 }) (fun t => (t.stage, t.fgs)) = some (5, 3) := by
  decide

/-- Q4 with a tick pending: DI does not clear TP (R162). -/
theorem test_di : look (exec .di { place fixture 3 [] with tp := true }) (fun t => (t.te, t.tp, t.fgs)) =
    some (false, true, 4) := by decide

/-- Q9. -/
theorem test_di_unguarded : look (exec .di (place { fixture with fgGuard := false } 3 [])) (fun t => (t.te, t.fgs)) =
    some (true, 4) := by decide

/-- Q7: TP stays, and the next word is TICK's. -/
theorem test_ei : look (exec .ei { place fixture 15 [] with tp := true }) (fun t => (t.te, t.tp, t.fgs, nextWord t)) =
    some (true, true, 16, some 0x24) := by decide

/-- L1. -/
theorem test_std : look (exec (.std 0) { place fixture 4 [] with stage := 0x0004805F, pdelta := 0x00000120 })
    (fun t => (t.pdelta, t.fgs)) = some (0x0000015F, 5) := by decide

/-- The second STD table: STD 2 after STD 0 and STD 1. -/
theorem test_std_high : look (exec (.std 2) { place fixture 6 [] with stage := 0x00000120, pdelta := 0xA1B20120 })
    (fun t => (t.pdelta, t.stage)) = some (0xA1000120, 0x00000120) := by decide

/-- L5 and L7. -/
theorem test_clp : look (exec (.clp 0) { place fixture 11 [] with phase := 0x00C34A7F }) (fun t => (t.phase, t.fgs)) =
      some (0x00C34A00, 12) ∧
    look (exec (.clp 2) { place fixture 13 [] with phase := 0x00C30000 }) (fun t => (t.phase, t.fgs)) =
      some (0x00000000, 14) := by decide

/-- Q1. -/
theorem test_rsts_high : look (exec .rsts { place fixture 9 [] with env := { Env.empty with levels := [true] } })
    (fun t => (t.rsf, t.fgs)) = some (true, 10) := by decide

/-- Q2. -/
theorem test_rsts_low :
    look (exec .rsts { place fixture 9 [] with rsf := true, env := { Env.empty with levels := [false] } })
      (fun t => (t.rsf, t.fgs)) = some (false, 16) := by decide

/-- Q8. -/
theorem test_dly : look (exec .dly (place fixture 16 [])) (fun t => (t.fgs, t.te)) = some (1, true) := by decide

/-- T6, an index of more than twice the table, and T10, the quadrature index wrapping. -/
theorem test_tick :
    look (exec .tick { place fixture 1 [] with phase := 0x00FF0000, pdelta := 0x02580000, tp := true })
      (fun t => (t.phase, t.trace, t.tp)) = some (0x00570000, [⟨0x570, .A⟩, ⟨0x970, .B⟩], false) ∧
    look (exec .tick { place fixture 1 [] with phase := 0x00BF0000, pdelta := 0x00010000 })
      (fun t => (t.trace, t.wtIdx)) = some ([⟨0xC00, .A⟩, ⟨0x000, .B⟩], [192, 0]) := by decide +kernel

/-- T17, the carry out of bit 31 on a table of 100 entries, and T15, the single channel. -/
theorem test_tick_corners :
    look (exec .tick { place table100 1 [] with phase := 0x00630000, pdelta := 0xFFFF0000 })
      (fun t => (t.phase, t.trace)) = some (0x00620000, [⟨0x620, .A⟩, ⟨0x170, .B⟩]) ∧
    look (exec .tick { place { fixture with dual := false } 1 [] with phase := 0x00420000 })
      (fun t => (t.phase, t.trace)) = some (0x00420000, [⟨0x420, .A⟩]) := by decide +kernel

/-! ### Steps -/

/-- X3 and X4: a timer event sets TP, and the tick then goes before the foreground. -/
theorem test_dispatch :
    look (step (place fixture 1 [.timer])) (fun t => (t.tp, t.fgs, t.opId)) = some (true, 1, none) ∧
    look (step { place fixture 1 [.run] with tp := true }) (fun t => (t.tp, t.fgs, t.opId)) =
      some (false, 1, some 0x24) := by decide +kernel

/-- X2: with TE = 0 the pending tick waits, and a second event is an overrun. -/
theorem test_held_off :
    look (step { place fixture 4 [.run] with tp := true }) (fun t => (t.tp, t.opId)) = some (true, some 0x14) ∧
    step { place fixture 4 [.timer] with tp := true } = .fault .timerOverrun := ⟨by decide, rfl⟩

/-- R210: the block reset keeps the configuration and clears everything else. -/
theorem test_block_reset :
    look (step { place table8 7 [.blockReset, .run] with phase := 5, tp := true, trace := [⟨0, .A⟩] })
      (fun t => (t.cfg.N, t.phase, t.tp, t.fgs, t.trace)) = some (8, 0, false, 0, []) := by decide

/-- P4, step 6: the unguarded block reads the torn increment 0x000000D5. -/
theorem test_torn_tick :
    look (step { place { fixture with fgGuard := false } 6 [.run] with
      te := true, tp := true, phase := 0x00100000, pdelta := 0x000000D5, stage := 0x000100D5 })
      (fun t => (t.phase, t.fgs, t.trace)) = some (0x001000D5, 6, [⟨0x100, .A⟩, ⟨0x500, .B⟩]) := by decide +kernel

/-! ### Witnesses: for each statement with hypotheses, a state that meets them -/

/-- The default configuration in sequencer state `f`. -/
def base (f : FgCode) (turns : List Turn) : State := place Config.default f turns

/-- The statements whose one hypothesis is a well-formed configuration: StartEffect, DlyEffect, StdStoresOneLane,
ClpClearsOneLane, RstsSamplesTheLine, TickEffect, TableReadsAreInRange, PhaseIsContinuous, EveryOperationCompletes for all
but SAMP, and the last clause of MapComputesTheIncrement. -/
theorem witness_wellFormed : State.reset.cfg.wf = true := by decide

/-- ConfigurationIsChecked, second half. -/
theorem witness_illFormed : (State.init { Config.default with N := 0 } Env.empty).cfg.wf = false := by decide

/-- BlockResetGivesResetValues. -/
theorem witness_blockReset : (base 7 [.blockReset]).cfg.wf = true ∧
    turnOf (base 7 [.blockReset]) = .blockReset := by decide

/-- LegalWordsDecode, last clause, and DecodeAndEncodeAgree, second half. -/
theorem witness_decodes : decode 0x17 = .ok (.std 3) ∧ decode 0x24 = .ok .tick := ⟨rfl, rfl⟩

/-- ReservedWordsAreRejected: the first and the last word of each clause's range. -/
theorem witness_reserved : (10 ≤ (0x28 : OpWord).toNat / 4 ∧ 10 ≤ (0x3F : OpWord).toNat / 4) ∧
    ((0x01 : OpWord).toNat / 4 ≤ 9 ∧ (0x01 : OpWord).toNat / 4 ≠ 5 ∧ (0x01 : OpWord).toNat / 4 ≠ 6 ∧
      (0x01 : OpWord).toNat % 4 ≠ 0) ∧
    ((0x27 : OpWord).toNat / 4 ≤ 9 ∧ (0x27 : OpWord).toNat / 4 ≠ 5 ∧ (0x27 : OpWord).toNat / 4 ≠ 6 ∧
      (0x27 : OpWord).toNat % 4 ≠ 0) := by decide

/-- StepRunsTheSelectedOperation, for a foreground operation and for TICK. -/
theorem witness_step :
    ((base 5 [.run]).cfg.wf = true ∧ turnOf (base 5 [.run]) = .run ∧
      nextWord (base 5 [.run]) = some 0x15 ∧ decode 0x15 = .ok (.std 1)) ∧
    (turnOf { base 1 [.run] with tp := true } = .run ∧
      nextWord { base 1 [.run] with tp := true } = some 0x24 ∧ decode 0x24 = .ok .tick) :=
  ⟨⟨by decide, rfl, rfl, rfl⟩, rfl, rfl, rfl⟩

/-- TimerEventSetsPending. -/
theorem witness_timer : (base 4 [.timer]).cfg.wf = true ∧ turnOf (base 4 [.timer]) = .timer ∧
    (base 4 [.timer]).tp = false := by decide

/-- OverrunIsAFault. -/
theorem witness_overrun : State.cfg { base 4 [.timer] with tp := true } = Config.default ∧ Config.default.wf = true ∧
    turnOf { base 4 [.timer] with tp := true } = .timer ∧
    State.tp { base 4 [.timer] with tp := true } = true := ⟨rfl, by decide, rfl, rfl⟩

/-- PendingEnabledTickGoesFirst: its first half, and its second with TE = 0 and with TP = 0. -/
theorem witness_pending :
    (turnOf { base 1 [.run] with tp := true } = .run ∧ (base 1 [.run]).te = true ∧
      (base 1 [.run]).cfg.wf = true) ∧
    ((base 0 [.run]).te = false ∧ ∃ t, step { base 0 [.run] with tp := true } = .next t) ∧
    ((base 3 [.run]).tp = false ∧ ∃ t, step (base 3 [.run]) = .next t) :=
  ⟨by decide, ⟨rfl, runs (by decide +kernel)⟩, rfl, runs (by decide +kernel)⟩

/-- ForegroundProgramRows: every one of its seventeen clauses. -/
theorem witness_rows : ∀ f : FgCode, f.toNat ≤ 16 → (base f [.run]).cfg.wf = true ∧
    turnOf (base f [.run]) = .run ∧
    ¬((base f [.run]).te = true ∧ (base f [.run]).tp = true) ∧
    (base f [.run]).env.readings = [] ∧ (base f [.run]).fgs = f := by decide

/-- The environment's contract about listed readings, as a check on the list. -/
theorem readings_legal {s : State} (h : s.env.readings.all (fun r => decide (r.toNat ≤ s.cfg.adcMax)) = true) :
    ReadingsLegal s := by
  intro r hr
  simpa using List.all_eq_true.mp h r hr

/-- ForegroundProgramRows at FGS = 1 and EveryOperationCompletes for SAMP: no listed reading, and listed readings up to
ADC_MAX. -/
theorem witness_readings : ReadingsLegal (base 1 [.run]) ∧
    ReadingsLegal { base 1 [.run] with env := { Env.empty with readings := [0, 1023] } } :=
  ⟨readings_legal (by decide), readings_legal (by decide)⟩

/-- SuccessorsAreCodes1To16, both halves. -/
theorem witness_successors : SequencerLegal (base 16 [.run]) ∧ turnOf (base 16 [.run]) = .run ∧
    ¬((base 16 [.run]).te = true ∧ (base 16 [.run]).tp = true) ∧
    ∃ t, step (base 16 [.run]) = .next t :=
  ⟨by unfold SequencerLegal; decide, by decide, by decide, runs (by decide +kernel)⟩

/-- UnassignedSequencerCodesAreStuck: the codes 17 and 31, no tick due and a tick due. -/
theorem witness_unassigned :
    (turnOf (base 17 [.run]) = .run ∧ 17 ≤ (base 17 [.run]).fgs.toNat ∧
      ¬((base 17 [.run]).te = true ∧ (base 17 [.run]).tp = true)) ∧
    (turnOf { base 31 [.run] with te := true, tp := true } = .run ∧
      17 ≤ (base 31 [.run]).fgs.toNat ∧ (base 31 [.run]).cfg.wf = true) := by decide

/-- StartIsTheFirstStep, both clauses. -/
theorem witness_boot : Config.default.wf = true ∧
    turnOf (State.init Config.default { Env.empty with turns := [.run] }) = .run ∧
    Env.turns { Env.empty with turns := [.timer, .run, .run] } = .timer :: .run :: .run :: [] := by decide

/-- SampTakesAReading where a reading is listed, at ADC_MAX, and where none is; ReadingAboveRangeIsRefused. -/
theorem witness_samp : Config.default.wf = true ∧
    ReadingsLegal { base 1 [] with env := { Env.empty with readings := [1023] } } ∧
    State.env { base 1 [] with env := { Env.empty with readings := [1023] } } =
      { Env.empty with readings := 1023 :: [] } ∧
    ReadingsLegal (base 1 []) ∧ Config.default.adcMax < (1024 : Half).toNat :=
  ⟨by decide, readings_legal (by decide), rfl, readings_legal (by decide), by decide⟩

/-- MapComputesTheIncrement: the readings 0 and ADC_MAX. -/
theorem witness_map : (base 2 []).cfg.wf = true ∧ (base 2 []).raw.toNat ≤ Config.default.adcMax ∧
    (State.raw { base 2 [] with raw := 1023 }).toNat ≤ Config.default.adcMax := by decide

/-- RstsSamplesTheLine, the listed level of either value. -/
theorem witness_rsts : Config.default.wf = true ∧
    (State.env { base 9 [] with env := { Env.empty with levels := [true] } }).levels = true :: [] ∧
    (State.env { base 9 [] with env := { Env.empty with levels := [false] } }).levels = false :: [] := by decide

/-- CriticalSectionOperations, PublishCopiesStage and ClearZeroesPhase, also for the answers DI and EI give. -/
theorem witness_guarded : (base 3 []).cfg.wf = true ∧ (base 3 []).cfg.fgGuard = true ∧
    (∃ t, exec .di (base 3 []) = .next t) ∧ ∃ t, exec .ei (base 8 []) = .next t :=
  ⟨by decide, rfl, runs (by decide +kernel), runs (by decide +kernel)⟩

/-- UnguardedCriticalSectionOperations. -/
theorem witness_unguarded : Config.wf { Config.default with fgGuard := false } = true ∧
    Config.fgGuard { Config.default with fgGuard := false } = false := by decide

/-- StdStoresOneLane, ClpClearsOneLane and LaneStoreWritesItsByte: the addresses at the two ends of each register. -/
theorem witness_lanes : (3 : LaneAddr).toNat ≤ 3 ∧ 4 ≤ (4 : LaneAddr).toNat ∧ (0 : LaneAddr).toNat ≤ 3 ∧
    4 ≤ (7 : LaneAddr).toNat ∧ (4 : LaneAddr) ≠ stdAddr 3 ∧ (3 : LaneAddr) ≠ clpAddr 0 := by decide

/-- ZeroIncrementHolds and SilenceBeforeTheFirstPublish (there with PHASE = 0). -/
theorem witness_hold : State.reset.cfg.wf = true ∧ State.reset.pdelta = 0 ∧ State.reset.phase = 0 ∧
    PhaseInRange { base 1 [] with phase := 0x00FFFFFF } := by
  refine ⟨by decide, rfl, rfl, ?_⟩; unfold PhaseInRange; decide

/-- QuadratureOffset. -/
theorem witness_dual : table100.wf = true ∧ table100.dual = true := by decide

/-- TopOfRangeCorner (T17), and the other side of the corner: PhaseIsContinuous, LargeIncrementsAreReduced. -/
theorem witness_corner : table100.wf = true ∧ 2 ^ 32 ≤ (0x00630000 : Word).toNat + (0xFFFF0000 : Word).toNat ∧
    (0x00630000 : Word).toNat + (0xFF9CFFFF : Word).toNat < 2 ^ 32 := by decide

/-- PhaseAfterManyTicks, at the largest increment it admits. -/
theorem witness_manyTicks : table8.wf = true ∧ PhaseInRange { place table8 1 [] with pdelta := 0xFFF80000 } ∧
    table8.N * 65536 + (0xFFF80000 : Word).toNat ≤ 2 ^ 32 := by
  refine ⟨by decide, ?_, by decide⟩; unfold PhaseInRange; decide

/-- FirstTickAfterAClear (T12, and an increment below one entry). -/
theorem witness_afterClear : (base 16 []).cfg.wf = true ∧ (base 16 []).phase = 0 ∧
    (State.pdelta { base 16 [] with pdelta := 0x0000FFFF }).toNat < 65536 := by decide

/-- UpdatePublishesTheReading. -/
theorem witness_update : Config.default.wf = true ∧ Config.default.fgGuard = true ∧
    ReadingsLegal { base 1 [] with env := { Env.empty with readings := [0, 3] } } := by
  exact ⟨by decide, rfl, readings_legal (by decide)⟩

/-- PartialPublishIsALaneMixture and TickInsideAClearPartlyUndoesIt, for every `j` they speak of. -/
theorem witness_partial : Config.default.wf = true ∧ (0 ≤ 4 ∧ 4 ≤ 4) ∧ (1 ≤ 1 ∧ 1 ≤ 3) ∧ (1 ≤ 3 ∧ 3 ≤ 3) ∧
    PhaseInRange { base 11 [] with phase := 0x00C34A7F } := by
  refine ⟨by decide, by decide, by decide, by decide, ?_⟩; unfold PhaseInRange; decide

/-- MappingBounds and MappingIsMonotone: the ends of the range, and two readings with one value. -/
theorem witness_mapping : Config.default.wf = true ∧ 1023 ≤ Config.default.adcMax ∧
    fmap Config.default 0 = fmap Config.default 1 ∧ 1 ≤ 1022 ∧ 1022 < 1023 := by decide

/-- TickIgnoresTheForeground. -/
theorem witness_sameEngine : SameEngine (base 6 []) (base 12 []) ∧
    ∃ t, exec .tick (base 6 []) = .next t := 
  ⟨⟨rfl, rfl, rfl, rfl, rfl⟩, runs (by decide +kernel)⟩

/-- ForegroundIgnoresTheSharedRegisters. -/
theorem witness_sameForeground :
    SameForeground (base 2 []) { base 2 [] with phase := 7, pdelta := 9, wtIdx := [1] } ∧
    Instr.map ≠ .tick ∧ ∃ t, exec .map (base 2 []) = .next t :=
  ⟨rfl, by decide, runs (by decide +kernel)⟩

/-- Statements over every step: ConfigurationNeverChanges, PhaseStaysInRange, RawStaysInRange, CodesStayMultiplesOf16,
TraceGrowsOnlyByTicks and TicksAreSeparatedByTimerEvents. The step is a TICK. -/
theorem witness_invariants :
    PhaseInRange { base 1 [.run] with tp := true, phase := 0x00FFFFFF, raw := 1023, trace := [⟨0xFF0, .A⟩] } ∧
    ReadingInRange { base 1 [.run] with tp := true, phase := 0x00FFFFFF, raw := 1023, trace := [⟨0xFF0, .A⟩] } ∧
    CodesWidened { base 1 [.run] with tp := true, phase := 0x00FFFFFF, raw := 1023, trace := [⟨0xFF0, .A⟩] } ∧
    look (step { base 1 [.run] with tp := true, phase := 0x00FFFFFF, raw := 1023, trace := [⟨0xFF0, .A⟩] })
      (·.opId) = some (some 0x24) := by
  refine ⟨?_, ?_, ?_, by decide +kernel⟩
  · unfold PhaseInRange; decide
  · unfold ReadingInRange; decide
  · unfold CodesWidened; decide

/-- The other clauses of those statements: a step that is no TICK, with TP = 0 and no timer event. -/
theorem witness_quietStep : turnOf (base 3 [.run]) = .run ∧ (base 3 [.run]).tp = false ∧
    look (step (base 3 [.run])) (·.opId) = some (some 0x0C) := by decide

/-- TickEnableFollowsTheProgram: a lane store, and SAMP, MAP, RSTS and DLY. -/
theorem witness_ticks : (base 14 [.run]).cfg.fgGuard = true ∧ SequencerLegal (base 14 [.run]) ∧
    TicksAsProgrammed (base 14 [.run]) ∧ (∃ t, step (base 14 [.run]) = .next t) ∧
    nextWord (base 14 [.run]) = some 0x1B ∧ nextWord (base 1 [.run]) = some 0x04 ∧
    nextWord (base 2 [.run]) = some 0x08 ∧ nextWord (base 9 [.run]) = some 0x1C ∧
    nextWord (base 16 [.run]) = some 0x20 :=
  ⟨rfl, by unfold SequencerLegal; decide, rfl, runs (by decide +kernel), rfl, rfl, rfl, rfl, rfl⟩

/-- A state in the middle of a publish (P3, after step 5). -/
def midPublish : State :=
  { base 6 (List.replicate 5 .run) with
    tp := true, raw := 228, stage := 0x000100D5, pdelta := 0x000000D5, phase := 0x00100000 }

/-- GuardedInvariantIsKept, HeldOffTickIsDueWithinFiveSteps and GuardedMachineRefinesAtomicMachine: the torn increment of
P3 is in PDELTA and the tick waits. -/
theorem witness_midPublish : GuardedInv midPublish ∧ midPublish.tp = true ∧
    midPublish.env.turns = List.replicate 5 .run ++ [] ∧ (∃ t, step midPublish = .next t) ∧
    Refines midPublish { midPublish with pdelta := 0x0000FFE0 } := by
  refine ⟨⟨by decide, rfl, ?_, ?_, rfl, ?_, ?_, ?_, ?_⟩, rfl, rfl, runs (by decide +kernel), ⟨rfl, ?_, ?_⟩⟩
  · unfold SequencerLegal; decide
  · unfold ReadingInRange; decide
  · unfold StageMapped; decide
  · unfold PublishProgress; decide
  · unfold ClearProgress; decide
  · intro h; exact absurd (by decide) h
  · intro h; exact absurd (by decide) h
  · intro _; rfl

/-- HeldOffTickIsDueWithinFiveSteps where all five steps are needed. -/
theorem witness_heldOff : GuardedInv { base 4 (List.replicate 5 .run) with tp := true, stage := 0x00000120 } ∧
    State.tp { base 4 (List.replicate 5 .run) with tp := true, stage := 0x00000120 } = true := by
  refine ⟨⟨by decide, rfl, ?_, ?_, rfl, ?_, ?_, ?_, fun _ => .inl rfl⟩, rfl⟩
  · unfold SequencerLegal; decide
  · unfold ReadingInRange; decide
  · unfold StageMapped; decide
  · unfold PublishProgress; decide
  · unfold ClearProgress; decide

/-- GuardedTickReadsAWholeIncrement: a TICK with the increment of reading 1023. -/
theorem witness_guardedTick :
    GuardedInv { base 9 [.run] with tp := true, raw := 1023, stage := 0x0004805F, pdelta := 0x0004805F } ∧
    look (step { base 9 [.run] with tp := true, raw := 1023, stage := 0x0004805F, pdelta := 0x0004805F })
      (·.opId) = some (some 0x24) := by
  refine ⟨⟨by decide, rfl, ?_, ?_, rfl, ?_, ?_, ?_, fun _ => .inr ⟨1023, by decide, by decide⟩⟩, by decide +kernel⟩
  · unfold SequencerLegal; decide
  · unfold ReadingInRange; decide
  · unfold StageMapped; decide
  · unfold PublishProgress; decide
  · unfold ClearProgress; decide

/-- GuardedInvariantAtReset and GuardedTracesAreAtomicTraces: two steps from reset, a timer event and START. -/
theorem witness_guardedRun : Config.default.wf = true ∧ Config.default.fgGuard = true ∧
    ∃ s, runSteps step 2 (State.init Config.default { Env.empty with turns := [.timer, .run] }) = .next s :=
  ⟨by decide, rfl, runs (by decide +kernel)⟩

end Sys2Proof.Machine.Tests
end

section
/-! SUPPORT. The configuration (00_scope.md R5 to R7): what the check says, what an ill-formed configuration is answered,
that no step writes it, and the values it has after reset. -/

namespace Sys2Proof.Machine

open Sys2Proof

variable {s t : State}

/-! ### The check of R6 -/

/-- WF7 is the width of a sample (R6, R71). -/
theorem waveAt_toNat_le (c : Config) (i : Nat) : (waveAt c i).toNat ≤ 255 :=
  Nat.le_of_lt_succ (waveAt c i).isLt

/-- R6 with WF7 among its conditions. -/
theorem wf_iff_conditions (c : Config) : c.wf = true ↔
    (1 ≤ c.N ∧ c.N ≤ 65536) ∧ 1 ≤ c.timerRate ∧ 1 ≤ c.scale ∧ (1 ≤ c.adcMax ∧ c.adcMax ≤ 65535) ∧
    c.N * c.adcMax * c.scale ≤ 2 ^ 32 - 1 ∧ c.N * c.scale ≥ c.timerRate ∧ ∀ i < c.N, (waveAt c i).toNat ≤ 255 := by
  simp [Config.wf_iff, waveAt_toNat_le]

/-! ### The refusal of an ill-formed configuration -/

theorem configured_illFormed (h : s.cfg.wf = false) (k : Result) : configured s k = .refused .illFormedConfig := by
  simp [configured, h]

theorem step_illFormed (h : s.cfg.wf = false) : step s = .refused .illFormedConfig := configured_illFormed h _

/-- Each of the ten operations makes the check before anything else. -/
theorem exec_illFormed (h : s.cfg.wf = false) (i : Instr) : exec i s = .refused .illFormedConfig := by
  cases i <;> exact configured_illFormed h _

/-! ### The frame of a step -/

/-- A timer event and a block reset keep the configuration by what they answer, an operation by `exec_cfg`. -/
theorem step_cfg (h : step s = .next t) : t.cfg = s.cfg := by
  obtain ⟨-, ⟨-, -, rfl⟩ | ⟨-, rfl⟩ | ⟨-, w, i, -, -, hexec⟩⟩ := stepWith_cases h
  case inl => simp
  case inr.inl => simp
  case inr.inr =>
    obtain ⟨hcfg, -⟩ := exec_cfg hexec
    simpa using hcfg

/-! ### The configuration after reset -/

/-- The values of R7 meet every clause of R6. -/
theorem default_wf : Config.default.wf = true := by
  rw [Config.wf_iff]
  simp [Config.default, Config.defaultWith]

end Sys2Proof.Machine

namespace Sys2Proof.Proofs

open Sys2Proof Sys2Proof.Machine

/-- Settles O3: the check clause by clause, and the refusal that every operation and every step begins with. -/
theorem configurationIsChecked : Obligations.ConfigurationIsChecked :=
  ⟨wf_iff_conditions, fun _ h => ⟨step_illFormed h, exec_illFormed h⟩⟩

/-- Settles O48, by the inversion of a step. -/
theorem configurationNeverChanges : Obligations.ConfigurationNeverChanges :=
  fun _ _ => step_cfg

/-- Settles O4: the values of R7 are those of the configuration after reset, and they pass the check. -/
theorem defaultConfiguration : Obligations.DefaultConfiguration :=
  ⟨rfl, rfl, rfl, rfl, rfl, rfl, rfl, default_wf⟩

end Sys2Proof.Proofs
end

section
/-! SUPPORT. The registers (10_state.md): the ranges of PHASE and RAW that every step keeps (R25, R36), what a step appends
to the output trace (R32), what the engine and the foreground depend on (R34), the sequencer codes that name no state
(R30), and the values after reset (R35). -/

namespace Sys2Proof.Machine

open Sys2Proof

variable {s t u : State} {i : Instr}

/-! ### Invariants of a step -/

/-- What every step keeps: it is enough that the beginning of a step, the timer event and each operation keep it, and that
it holds after reset in a well-formed configuration. -/
theorem step_keeps {P : State → Prop} (hbegin : ∀ op s, P s → P (beginStep op s))
    (htimer : ∀ s, P s → P (s.setTp true)) (hreset : ∀ c e, c.wf = true → P (State.init c e))
    (hexec : ∀ i s t, P s → exec i s = .next t → P t) (hs : P s) (h : step s = .next t) : P t := by
  obtain ⟨hw, ⟨-, -, rfl⟩ | ⟨-, rfl⟩ | ⟨-, w, i, -, -, hex⟩⟩ := stepWith_cases h
  · exact htimer _ (hbegin none s hs)
  · exact hreset _ _ hw
  · exact hexec i _ t (hbegin (some w) s hs) hex

/-! ### PHASE in range -/

theorem phaseInRange_init {c : Config} (h : c.wf = true) (e : Env) : PhaseInRange (State.init c e) := by
  simpa [PhaseInRange, intPart_toNat] using Config.wf.N_pos h

/-- Clearing a lane never increases the integer part (42_phase_reset.md R152). -/
theorem intPart_setlane_zero_le (v : Word) (k : Lane) : (intPart (setlane v k 0)).toNat ≤ (intPart v).toNat := by
  rw [intPart_toNat, intPart_toNat]
  exact Nat.div_le_div_right (setlane_zero_le v k)

/-- CLP does not increase the integer part, TICK reduces it, and no other operation writes PHASE. -/
theorem phaseAfter_inRange (hw : s.cfg.wf = true) (hs : PhaseInRange s) (i : Instr) :
    (intPart (phaseAfter i s)).toNat < s.cfg.N := by
  cases i
  case clp k => exact lt_of_le_of_lt (intPart_setlane_zero_le s.phase k) hs
  case tick => exact tickIdxA_lt hw
  all_goals exact hs

theorem exec_keeps_phaseInRange (hs : PhaseInRange s) (h : exec i s = .next t) : PhaseInRange t := by
  rw [PhaseInRange, exec_phase h, (exec_cfg h).1]
  exact phaseAfter_inRange (exec_wf h) hs i

/-! ### RAW in range -/

theorem exec_keeps_readingInRange (hs : ReadingInRange s) (h : exec i s = .next t) : ReadingInRange t := by
  rw [ReadingInRange, (exec_cfg h).1]
  obtain ⟨-, hle⟩ | ⟨-, heq⟩ := exec_raw h
  · exact hle
  · rw [heq]; exact hs

/-! ### The output trace -/

theorem tickWrites_length (s : State) : (tickWrites s).length = if s.cfg.dual then 2 else 1 := by
  unfold tickWrites
  split <;> rfl

theorem writesOf_of_ne_tick (hi : i ≠ .tick) (s : State) : writesOf i s = [] := by
  cases i
  case tick => exact absurd rfl hi
  all_goals rfl

/-- A selected word is TICK's exactly when the operation it decodes to is TICK (60_exceptions.md R185). -/
theorem nextWord_eq_tickWord_iff {w : OpWord} (hn : nextWord s = some w) (hd : decode w = .ok i) :
    w = tickWord ↔ i = .tick := by
  constructor
  · rintro rfl
    simpa [decode_tickWord] using hd.symm
  · rintro rfl
    obtain ⟨-, hw, -⟩ | ⟨-, -, hw⟩ := nextWord_cases hn hd <;> exact hw

/-! ### What the engine depends on -/

namespace SameEngine

theorem tickPhase_eq (h : SameEngine s t) : tickPhase s = tickPhase t := by
  obtain ⟨hcfg, hphase, hpdelta, -, -⟩ := h
  rw [tickPhase, hcfg, hphase, hpdelta]

theorem tickWrites_eq (h : SameEngine s t) : tickWrites s = tickWrites t := by
  have hphase := h.tickPhase_eq
  obtain ⟨hcfg, -⟩ := h
  simp only [tickWrites, tickIdxB, tickIdxA, hcfg, hphase]

theorem tickReads_eq (h : SameEngine s t) : tickReads s = tickReads t := by
  have hphase := h.tickPhase_eq
  obtain ⟨hcfg, -⟩ := h
  simp only [tickReads, tickIdxB, tickIdxA, hcfg, hphase]

end SameEngine

/-! ### What the foreground depends on -/

/-- Two states are the same to the foreground exactly when they agree in each of the nine fields it may read. -/
theorem sameForeground_iff : SameForeground s t ↔
    s.cfg = t.cfg ∧ s.stage = t.stage ∧ s.raw = t.raw ∧ s.rsf = t.rsf ∧ s.te = t.te ∧ s.tp = t.tp ∧ s.fgs = t.fgs ∧
      s.opId = t.opId ∧ s.env = t.env := by
  cases s
  cases t
  simp [SameForeground]

/-! The same write to both states keeps them the same, and so does any write to a shared register. -/

namespace SameForeground

theorem cfg_eq (h : SameForeground s t) : s.cfg = t.cfg := (sameForeground_iff.mp h).1

theorem setStage (h : SameForeground s t) (v : Word) : SameForeground (s.setStage v) (t.setStage v) := by
  simp_all [sameForeground_iff]

theorem setRaw (h : SameForeground s t) (v : Half) : SameForeground (s.setRaw v) (t.setRaw v) := by
  simp_all [sameForeground_iff]

theorem setRsf (h : SameForeground s t) (v : Bool) : SameForeground (s.setRsf v) (t.setRsf v) := by
  simp_all [sameForeground_iff]

theorem setTe (h : SameForeground s t) (v : Bool) : SameForeground (s.setTe v) (t.setTe v) := by
  simp_all [sameForeground_iff]

theorem setEnv (h : SameForeground s t) (v : Env) : SameForeground (s.setEnv v) (t.setEnv v) := by
  simp_all [sameForeground_iff]

theorem setPhase (h : SameForeground s t) (v w : Word) : SameForeground (s.setPhase v) (t.setPhase w) := by
  simp_all [sameForeground_iff]

theorem setPdelta (h : SameForeground s t) (v w : Word) : SameForeground (s.setPdelta v) (t.setPdelta w) := by
  simp_all [sameForeground_iff]

theorem goTo (h : SameForeground s t) (f : FgCode) : SameForeground (goTo f s) (goTo f t) := by
  simp_all [sameForeground_iff, Machine.goTo]

theorem advance (h : SameForeground s t) : SameForeground (advance s) (advance t) := by
  simp_all [sameForeground_iff, Machine.advance]

theorem enterCritical (h : SameForeground s t) : SameForeground (enterCritical s) (enterCritical t) := by
  simp_all [sameForeground_iff]

theorem leaveCritical (h : SameForeground s t) : SameForeground (leaveCritical s) (leaveCritical t) := by
  simp_all [sameForeground_iff]

end SameForeground

/-- A foreground operation that completes from `s` completes from every state that is the same to the foreground, and the
two states it leaves are the same to it again. -/
theorem exec_sameForeground (hi : i ≠ .tick) (hsu : SameForeground s u) (h : exec i s = .next t) :
    ∃ v, exec i u = .next v ∧ SameForeground t v := by
  have hcfg := hsu.cfg_eq
  obtain ⟨-, -, hraw, -, -, -, -, -, henv⟩ := sameForeground_iff.mp hsu
  have hw := exec_wf h
  have hu : u.cfg.wf = true := hcfg ▸ hw
  cases i
  case start =>
    rw [exec_start hw] at h; cases h
    exact ⟨_, exec_start hu, (hsu.setTe true).goTo 1⟩
  case samp =>
    obtain ⟨r, e, hr, rfl⟩ := exec_samp_cases h
    rw [hcfg, henv] at hr
    exact ⟨_, exec_samp hu hr, ((hsu.setEnv e).setRaw r).goTo 2⟩
  case map =>
    rw [exec_map hw, hcfg, hraw] at h; cases h
    exact ⟨_, exec_map hu, (hsu.setStage _).goTo 3⟩
  case di =>
    rw [exec_di hw] at h; cases h
    exact ⟨_, exec_di hu, hsu.enterCritical.advance⟩
  case ei =>
    rw [exec_ei hw] at h; cases h
    exact ⟨_, exec_ei hu, hsu.leaveCritical.advance⟩
  case std k =>
    rw [exec_std hw] at h; cases h
    exact ⟨_, exec_std hu k, (hsu.setPdelta _ _).advance⟩
  case clp k =>
    rw [exec_clp hw] at h; cases h
    exact ⟨_, exec_clp hu k, (hsu.setPhase _ _).advance⟩
  case rsts =>
    rw [exec_rsts hw, henv] at h; cases h
    exact ⟨_, exec_rsts hu, ((hsu.setEnv _).setRsf _).goTo _⟩
  case dly =>
    rw [exec_dly hw] at h; cases h
    exact ⟨_, exec_dly hu, hsu.goTo 1⟩
  case tick => exact absurd rfl hi

/-- TICK alone reads the wavetable (20_memory.md R52). -/
theorem exec_wtIdx_of_ne_tick (h : exec i s = .next t) (hi : i ≠ .tick) : t.wtIdx = s.wtIdx := by
  revert hi
  refine exec_cases (P := fun i s t => i ≠ .tick → t.wtIdx = s.wtIdx) ?_ ?_ ?_ ?_ ?_ ?_ ?_ ?_ ?_ ?_ h <;> intros
  case refine_10 _ hi => exact absurd rfl hi
  all_goals simp [goTo, advance, enableTicks, latchLevel]

theorem exec_trace_of_ne_tick (h : exec i s = .next t) (hi : i ≠ .tick) : t.trace = s.trace := by
  rw [exec_trace h, writesOf_of_ne_tick hi, List.append_nil]

/-! ### The selection of the block's operation -/

/-- The codes 17 to 31 name no operation (93_implementation_defined.md U8). -/
theorem nextWord_unassigned (hdue : tickDue s = false) (hf : 17 ≤ s.fgs.toNat) : nextWord s = none := by
  have hnone : programInstr s.fgs = none := by
    rw [← Option.not_isSome_iff_eq_none, programInstr_isSome, decide_eq_true_eq]
    omega
  simp [nextWord, hdue, program_words, hnone]

theorem step_unassigned (hw : s.cfg.wf = true) (ht : turnOf s = .run) (hdue : tickDue s = false)
    (hf : 17 ≤ s.fgs.toNat) : step s = .fault .stuckSequencer := by
  rw [step, stepWith_run hw ht, blockStep, nextWord_unassigned hdue hf]

/-- A due tick is taken, whatever FGS is (60_exceptions.md R185). -/
theorem step_tickDue (hw : s.cfg.wf = true) (ht : turnOf s = .run) (hdue : tickDue s = true) :
    step s = exec .tick (beginStep (some tickWord) s) := by
  rw [step, stepWith_run hw ht, blockStep_eq (nextWord_tick hdue) decode_tickWord]

/-! ### The values after reset -/

/-- At FGS = 0 no reading is mapped and neither a publish nor a clear is under way, so only the ranges, TE and PDELTA
remain, and each is at its reset value. -/
theorem guardedInv_init {c : Config} (hw : c.wf = true) (hg : c.fgGuard = true) (e : Env) :
    GuardedInv (State.init c e) where
  wf := hw
  guard := hg
  sequencer := Nat.zero_le _
  reading := Nat.zero_le _
  ticks := rfl
  stage h := absurd h (by simp)
  publish h := absurd h (by simp)
  clear h := absurd h (by simp)
  pdelta _ := .inl rfl

end Sys2Proof.Machine

namespace Sys2Proof.Proofs

open Sys2Proof Sys2Proof.Machine

/-- Settles O49: after reset PHASE is 0, and every operation keeps its integer part below `N`. -/
theorem phaseStaysInRange : Obligations.PhaseStaysInRange :=
  ⟨fun _ e hw => phaseInRange_init hw e, fun _ _ =>
    step_keeps (fun _ _ hs => hs) (fun _ hs => hs) (fun _ e hw => phaseInRange_init hw e)
      (fun _ _ _ => exec_keeps_phaseInRange)⟩

/-- Settles O46: phase, writes and reads of a TICK are functions of what the two states share. -/
theorem tickIgnoresTheForeground : Obligations.TickIgnoresTheForeground := by
  intro s₁ s₂ t₁ hsame h
  have hw := exec_wf h
  rw [exec_tick hw] at h
  cases h
  have hphase := hsame.tickPhase_eq
  have hwrites := hsame.tickWrites_eq
  have hreads := hsame.tickReads_eq
  obtain ⟨hcfg, -, hpdelta, htrace, hwtIdx⟩ := hsame
  refine ⟨_, exec_tick (hcfg ▸ hw), ⟨hcfg, hphase, hpdelta, ?_, ?_⟩, ?_⟩
  · simp only [htrace, hwrites]
  · simp only [hwtIdx, hreads]
  · simp only [hphase, htrace, hwrites, hwtIdx, hreads]

/-- Settles O47, operation by operation. -/
theorem foregroundIgnoresTheSharedRegisters : Obligations.ForegroundIgnoresTheSharedRegisters :=
  fun _ _ _ _ hi hsame h =>
    ⟨exec_trace_of_ne_tick h hi, exec_wtIdx_of_ne_tick h hi, exec_sameForeground hi hsame h⟩

/-- Settles O50: after reset RAW is 0, and SAMP alone writes it, with a reading in range. -/
theorem rawStaysInRange : Obligations.RawStaysInRange :=
  fun _ _ => step_keeps (fun _ _ hs => hs) (fun _ hs => hs) (fun _ _ _ => Nat.zero_le _)
    (fun _ _ _ => exec_keeps_readingInRange)

/-- Settles O53: a timer event writes nothing, and an operation shows TICK's word exactly when it is TICK. -/
theorem traceGrowsOnlyByTicks : Obligations.TraceGrowsOnlyByTicks := by
  intro s t h hreset
  obtain ⟨-, ⟨-, -, rfl⟩ | ⟨ht, -⟩ | ⟨-, w, i, hn, hd, hex⟩⟩ := stepWith_cases h
  · exact ⟨[], by simp⟩
  · exact absurd ht hreset
  · have hop : t.opId = some 0x24 ↔ i = .tick := by
      rw [(exec_cfg hex).2, beginStep_opId, Option.some.injEq]
      exact nextWord_eq_tickWord_iff hn hd
    have htrace := exec_trace hex
    refine ⟨_, htrace, fun h24 => ?_, fun h24 => writesOf_of_ne_tick (mt hop.mpr h24) _⟩
    obtain rfl := hop.mp h24
    exact tickWrites_length _

/-- Settles O1: the reset state is `State.init`, field by field. -/
theorem resetValues : Obligations.ResetValues :=
  ⟨State.init_phase _ _, State.init_pdelta _ _, State.init_stage _ _, State.init_raw _ _, State.init_rsf _ _,
    State.init_te _ _, State.init_tp _ _, State.init_fgs _ _, State.init_trace _ _⟩

/-- Settles O14: no word is selected unless a tick is due, and TICK leaves FGS alone. -/
theorem unassignedSequencerCodesAreStuck : Obligations.UnassignedSequencerCodesAreStuck := by
  intro s hw ht hf
  constructor
  · intro hdue
    exact step_unassigned hw ht (by simpa [tickDue] using hdue) hf
  · intro hte htp
    have htick := exec_tick (s := beginStep (some tickWord) s) hw
    refine ⟨_, ?_, (exec_cfg htick).2, exec_fgs htick, htick⟩
    rw [step_tickDue hw ht (by simp [tickDue, hte, htp]), htick]

/-- Settles O56: the default configuration is one with the guard. -/
theorem guardedInvariantAtReset : Obligations.GuardedInvariantAtReset :=
  ⟨guardedInv_init default_wf rfl Env.empty, fun _ e hw hg => guardedInv_init hw hg e⟩

end Sys2Proof.Proofs
end

section
/-! SUPPORT. The address spaces and the critical section (20_memory.md): what a lane store changes and leaves alone (R54 to
R56), and how long the critical section holds off a pending tick (R63). -/

namespace Sys2Proof.Machine

open Sys2Proof

variable {s t : State} {i : Instr} {f : FgCode}

/-! ### Lane addresses and lane stores -/

theorem stdAddr_inj {j k : Lane} : stdAddr j = stdAddr k ↔ j = k := by
  revert j k; decide

theorem clpAddr_inj {j k : Lane} : clpAddr j = clpAddr k ↔ j = k := by
  revert j k; decide

/-- The lanes of PDELTA and those of PHASE have different addresses (R54). -/
theorem stdAddr_ne_clpAddr (j k : Lane) : stdAddr j ≠ clpAddr k := by
  revert j k; decide

/-- A store is seen at its own address and at no other, in the register it writes and in the other one (R56). -/
theorem laneAt_memWrite (a : LaneAddr) (b : Byte) (s : State) (x : LaneAddr) :
    laneAt (memWrite a b s) x = if x = a then b else laneAt s x := by
  obtain ⟨k, rfl⟩ | ⟨k, rfl⟩ := laneAddr_cases a <;> obtain ⟨j, rfl⟩ | ⟨j, rfl⟩ := laneAddr_cases x
  · simp [memWrite_stdAddr, laneAt_stdAddr, lane_setlane, stdAddr_inj]
  · simp [memWrite_stdAddr, laneAt_clpAddr, (stdAddr_ne_clpAddr k j).symm]
  · simp [memWrite_clpAddr, laneAt_stdAddr, stdAddr_ne_clpAddr j k]
  · simp [memWrite_clpAddr, laneAt_clpAddr, lane_setlane, clpAddr_inj]

theorem memWrite_of_le_three {a : LaneAddr} (h : a.toNat ≤ 3) (b : Byte) (s : State) :
    memWrite a b s = s.setPdelta (memWrite a b s).pdelta := by
  simp [memWrite, h]

theorem memWrite_of_four_le {a : LaneAddr} (h : 4 ≤ a.toNat) (b : Byte) (s : State) :
    memWrite a b s = s.setPhase (memWrite a b s).phase := by
  simp [memWrite, show ¬a.toNat ≤ 3 by omega]

theorem setlane_setlane_same (v : Word) (k : Lane) (b c : Byte) : setlane (setlane v k b) k c = setlane v k c := by
  apply word_eq_of_lanes
  intro j
  by_cases h : j = k <;> simp [lane_setlane, h]

/-- The second of two stores to one address decides. -/
theorem memWrite_memWrite_same (a : LaneAddr) (b c : Byte) (s : State) :
    memWrite a c (memWrite a b s) = memWrite a c s := by
  obtain ⟨k, rfl⟩ | ⟨k, rfl⟩ := laneAddr_cases a
  · simp only [memWrite_stdAddr, State.setPdelta_pdelta, setlane_setlane_same]
    rfl
  · simp only [memWrite_clpAddr, State.setPhase_phase, setlane_setlane_same]
    rfl

/-! ### A foreground step -/

theorem turnOf_of_turns {u : Turn} {us : List Turn} (h : s.env.turns = u :: us) : turnOf s = u := by
  simp [turnOf, h]

theorem popTurn_turns {e : Env} {u : Turn} {us : List Turn} (h : e.turns = u :: us) : (popTurn e).turns = us := by
  simp [popTurn, h]

@[simp] theorem drawLevel_turns (e : Env) : (drawLevel e).2.turns = e.turns := by
  unfold drawLevel; split <;> rfl

/-- An operation takes readings and levels from the environment and leaves its turns alone (R194). -/
theorem exec_turns (h : exec i s = .next t) : t.env.turns = s.env.turns := by
  refine exec_cases (P := fun _ s t => t.env.turns = s.env.turns) ?_ ?_ ?_ ?_ ?_ ?_ ?_ ?_ ?_ ?_ h <;> intros
  case refine_2 hw hr =>
    obtain ⟨-, hturns, -⟩ := drawReading_cases hw hr
    exact hturns
  all_goals simp [goTo, advance, enableTicks, latchLevel]

/-- No operation but SAMP can be refused in a well-formed configuration (60_exceptions.md R180). -/
theorem exec_completes_of_ne_samp (hw : s.cfg.wf = true) (hi : i ≠ .samp) : ∃ t, exec i s = .next t := by
  cases i
  case samp => exact absurd rfl hi
  case start => exact ⟨_, exec_start hw⟩
  case map => exact ⟨_, exec_map hw⟩
  case di => exact ⟨_, exec_di hw⟩
  case ei => exact ⟨_, exec_ei hw⟩
  case std k => exact ⟨_, exec_std hw k⟩
  case clp k => exact ⟨_, exec_clp hw k⟩
  case rsts => exact ⟨_, exec_rsts hw⟩
  case dly => exact ⟨_, exec_dly hw⟩
  case tick => exact ⟨_, exec_tick hw⟩

/-- With no tick due the block performs the row of the program that FGS names (43_sequencing.md R170, R172). -/
theorem step_program (hw : s.cfg.wf = true) (ht : turnOf s = .run) (hdue : tickDue s = false)
    (hi : programInstr s.fgs = some i) : step s = exec i (beginStep (some (encode i)) s) := by
  rw [step, stepWith_run hw ht, blockStep_eq (nextWord_program hdue hi) (decode_programInstr _ _ hi)]

/-! ### The rows of the program -/

theorem exists_programInstr (hf : f.toNat ≤ 16) : ∃ i, programInstr f = some i :=
  Option.isSome_iff_exists.mp (by rw [programInstr_isSome, decide_eq_true hf])

/-- TICK is in no row of the program (43_sequencing.md R170). -/
theorem programInstr_ne_tick (h : programInstr f = some i) : i ≠ .tick := by
  have hall : ∀ f : FgCode, ∀ i ∈ programInstr f, i ≠ .tick := by decide
  exact hall f i h

/-- SAMP is performed with ticks enabled (43_sequencing.md R174). -/
theorem programInstr_ne_samp (h : programInstr f = some i) (hte : teAt f = false) : i ≠ .samp := by
  have hall : ∀ f : FgCode, teAt f = false → ∀ i ∈ programInstr f, i ≠ .samp := by decide
  exact hall f hte i h

/-- The successor of every row is a code of the program (43_sequencing.md R171). -/
theorem fgsAfter_legal (h : programInstr f = some i) (high : Bool) : (fgsAfter i f high).toNat ≤ 16 := by
  have hall : ∀ f : FgCode, ∀ i ∈ programInstr f, ∀ high, (fgsAfter i f high).toNat ≤ 16 := by decide
  exact hall f i h high

/-- Under the guard every row leaves TE as its successor has it (43_sequencing.md R174). -/
theorem teAfter_teAt (h : programInstr f = some i) (high : Bool) :
    teAfter i true (teAt f) = teAt (fgsAfter i f high) := by
  have hall : ∀ f : FgCode, ∀ i ∈ programInstr f, ∀ high, teAfter i true (teAt f) = teAt (fgsAfter i f high) := by
    decide
  exact hall f i h high

/-! ### How long a tick is held off -/

/-- The foreground steps from sequencer state `f` to the next state with TE = 1: one before START, and inside a publish or
a clear as many as to the end of its EI (R63). -/
def holdOff (f : FgCode) : Nat :=
  if f = 0 then 1
  else if 4 ≤ f.toNat ∧ f.toNat ≤ 8 then 9 - f.toNat
  else if 11 ≤ f.toNat ∧ f.toNat ≤ 15 then 16 - f.toNat
  else 0

theorem holdOff_le (f : FgCode) : holdOff f ≤ 5 := by
  revert f; decide

theorem holdOff_eq_zero_iff (hf : f.toNat ≤ 16) : holdOff f = 0 ↔ teAt f = true := by
  revert f; decide

/-- Every row performed with TE = 0 brings the end of the critical section one step nearer. -/
theorem holdOff_fgsAfter (h : programInstr f = some i) (hte : teAt f = false) (high : Bool) :
    holdOff (fgsAfter i f high) + 1 = holdOff f := by
  have hall : ∀ f : FgCode, teAt f = false → ∀ i ∈ programInstr f, ∀ high,
      holdOff (fgsAfter i f high) + 1 = holdOff f := by decide
  exact hall f hte i h high

/-- A state of the guarded machine in which a tick is pending: the part of the guarded invariant that the hold-off
depends on, with TP = 1. -/
structure TickPending (s : State) : Prop where
  wf : s.cfg.wf = true
  guard : s.cfg.fgGuard = true
  sequencer : SequencerLegal s
  ticks : TicksAsProgrammed s
  tp : s.tp = true

theorem GuardedInv.tickPending (h : GuardedInv s) (htp : s.tp = true) : TickPending s :=
  ⟨h.wf, h.guard, h.sequencer, h.ticks, htp⟩

namespace TickPending

/-- While TE = 0 the block's step completes, keeps the tick pending, emits nothing and comes one step nearer to TE = 1. -/
theorem step_heldOff (hs : TickPending s) (hte : s.te = false) {us : List Turn} (hturns : s.env.turns = .run :: us) :
    ∃ t, step s = .next t ∧ TickPending t ∧ t.trace = s.trace ∧ t.env.turns = us ∧
      holdOff t.fgs + 1 = holdOff s.fgs := by
  obtain ⟨hw, hguard, hlegal, hticks, htp⟩ := hs
  have hteAt : teAt s.fgs = false := hticks.symm.trans hte
  obtain ⟨i, hi⟩ := exists_programInstr hlegal
  have htick := programInstr_ne_tick hi
  obtain ⟨t, ht⟩ := exec_completes_of_ne_samp (s := beginStep (some (encode i)) s) hw (programInstr_ne_samp hi hteAt)
  have hcfg : t.cfg = s.cfg := (exec_cfg ht).1
  have hfgs : t.fgs = fgsAfter i s.fgs t.rsf := by simpa using exec_fgs ht
  have htrace : t.trace = s.trace := by simpa using exec_trace_of_ne_tick ht htick
  have hte' : t.te = teAfter i true (teAt s.fgs) := by
    rw [exec_te ht, beginStep_cfg, hguard, beginStep_te, hticks]
  refine ⟨t, ?_, ⟨hcfg ▸ hw, hcfg ▸ hguard, ?_, ?_, ?_⟩, htrace, ?_, ?_⟩
  · rw [step_program hw (turnOf_of_turns hturns) (by simp [tickDue, hte]) hi, ht]
  · rw [SequencerLegal, hfgs]
    exact fgsAfter_legal hi t.rsf
  · rw [TicksAsProgrammed, hte', hfgs, teAfter_teAt hi]
  · simp [exec_tp ht, htp, htick]
  · rw [exec_turns ht, beginStep_env, popTurn_turns hturns]
  · rw [hfgs, holdOff_fgsAfter hi hteAt]

/-- A pending tick is due after exactly `holdOff` steps of the block. -/
theorem runSteps_holdOff {n : Nat} (hn : holdOff s.fgs = n) (hs : TickPending s) {rest : List Turn}
    (hturns : s.env.turns = List.replicate n .run ++ rest) :
    ∃ t, runSteps step n s = .next t ∧ t.te = true ∧ t.tp = true ∧ t.trace = s.trace := by
  induction n generalizing s with
  | zero => exact ⟨s, rfl, hs.ticks.trans ((holdOff_eq_zero_iff hs.sequencer).mp hn), hs.tp, rfl⟩
  | succ n ih =>
    have hte : s.te = false := by
      rw [hs.ticks, ← Bool.not_eq_true, ← holdOff_eq_zero_iff hs.sequencer, hn]
      exact Nat.succ_ne_zero n
    obtain ⟨t, hstep, ht, htrace, hturns', hoff⟩ := hs.step_heldOff hte hturns
    obtain ⟨u, hrun, hute, hutp, hutrace⟩ := ih (by omega) ht hturns'
    exact ⟨u, by rw [runSteps, hstep, andThen_next, hrun], hute, hutp, hutrace.trans htrace⟩

end TickPending

end Sys2Proof.Machine

namespace Sys2Proof.Proofs

open Sys2Proof Sys2Proof.Machine

/-- Settles O26: the lane map is the definition of `laneAt`, and a store is a lane store to one of the two registers. -/
theorem laneStoreWritesItsByte : Obligations.LaneStoreWritesItsByte :=
  ⟨fun _ => ⟨rfl, rfl, rfl, rfl, rfl, rfl, rfl, rfl⟩, fun a b s =>
    ⟨laneAt_memWrite a b s, fun h => memWrite_of_le_three h b s, fun h => memWrite_of_four_le h b s,
      memWrite_memWrite_same a b b s⟩⟩

/-- Settles O55: the steps that are needed are `holdOff` of FGS, which is at most five. -/
theorem heldOffTickIsDueWithinFiveSteps : Obligations.HeldOffTickIsDueWithinFiveSteps := by
  intro s rest hinv htp hturns
  have hle := holdOff_le s.fgs
  have hsplit : s.env.turns =
      List.replicate (holdOff s.fgs) .run ++ (List.replicate (5 - holdOff s.fgs) .run ++ rest) := by
    rw [hturns, ← List.append_assoc, ← List.replicate_add, Nat.add_sub_cancel' hle]
  obtain ⟨t, hrun⟩ := (hinv.tickPending htp).runSteps_holdOff rfl hsplit
  exact ⟨holdOff s.fgs, t, hle, hrun⟩

end Sys2Proof.Proofs
end

section
/-! SUPPORT. Encoding (30_encoding.md): the two fields of a word (R81), when a word decodes and to which operation (R82,
R83), how every other word is rejected (R84), and the codes on the output trace (R72). -/

namespace Sys2Proof

variable {w : OpWord} {i j : Instr}

/-! ### The fields of a word -/

theorem opcOf_toNat (w : OpWord) : (opcOf w).toNat = w.toNat / 4 := by
  have h := w.isLt
  simp only [opcOf, BitVec.extractLsb'_toNat, Nat.shiftRight_eq_div_pow]
  omega

theorem laneOf_toNat (w : OpWord) : (laneOf w).toNat = w.toNat % 4 := by
  simp [laneOf, BitVec.extractLsb'_toNat]

@[simp] theorem opcOf_append (o : BitVec 4) (k : Lane) : opcOf (o ++ k) = o := by
  revert o k; decide

@[simp] theorem laneOf_append (o : BitVec 4) (k : Lane) : laneOf (o ++ k) = k := by
  revert o k; decide

/-- A word is its two fields. -/
theorem opcOf_append_laneOf (w : OpWord) : opcOf w ++ laneOf w = w := by
  revert w; decide

/-- The fields of the encoder's word (R82). -/
theorem encode_eq_iff : encode i = w ↔ opcodeOf i = opcOf w ∧ laneField i = laneOf w := by
  constructor
  · rintro rfl
    exact ⟨(opcOf_append _ _).symm, (laneOf_append _ _).symm⟩
  · rintro ⟨hopc, hlane⟩
    rw [encode, hopc, hlane, opcOf_append_laneOf]

/-! ### The words that decode -/

theorem laneOf_eq_zero_iff : laneOf w = 0 ↔ w.toNat % 4 = 0 := by
  rw [← laneOf_toNat, ← BitVec.toNat_inj]
  rfl

theorem decodePlain_eq_ok_iff : decodePlain w i = .ok j ↔ laneOf w = 0 ∧ i = j := by
  unfold decodePlain
  split <;> simp_all

theorem decodePlain_of_lane_zero (h : w.toNat % 4 = 0) (i : Instr) : decodePlain w i = .ok i :=
  if_pos (laneOf_eq_zero_iff.mpr h)

theorem decodePlain_of_lane_ne_zero (h : w.toNat % 4 ≠ 0) (i : Instr) : decodePlain w i = .error .reservedLane :=
  if_neg (mt laneOf_eq_zero_iff.mp h)

/-- The decoder answers the operation whose two fields are the word's. Of the decoder's arms `h_6` is STD's, `h_7` CLP's
and `h_11` that of the reserved codes. -/
theorem decode_eq_ok_iff_fields : decode w = .ok i ↔ opcodeOf i = opcOf w ∧ laneField i = laneOf w := by
  constructor
  · intro h
    unfold decode at h
    split at h
    case h_11 => cases h
    case h_6 hopc | h_7 hopc =>
      cases h
      exact ⟨BitVec.eq_of_toNat_eq hopc.symm, rfl⟩
    all_goals
      next hopc =>
        obtain ⟨hlane, rfl⟩ := decodePlain_eq_ok_iff.mp h
        exact ⟨BitVec.eq_of_toNat_eq hopc.symm, hlane.symm⟩
  · rintro ⟨hopc, hlane⟩
    unfold decode
    rw [← hopc]
    cases i
    case std k | clp k => rw [← hlane]; rfl
    all_goals exact decodePlain_eq_ok_iff.mpr ⟨hlane.symm, rfl⟩

/-- The decoder inverts the encoder (R82, R83). -/
theorem decode_eq_ok_iff : decode w = .ok i ↔ encode i = w :=
  decode_eq_ok_iff_fields.trans encode_eq_iff.symm

theorem decode_encode (i : Instr) : decode (encode i) = .ok i := decode_eq_ok_iff.mpr rfl

/-- STD and CLP alone carry a lane number (R82). -/
theorem opcodeOf_or_laneField_eq_zero (i : Instr) : opcodeOf i = 5 ∨ opcodeOf i = 6 ∨ laneField i = 0 := by
  cases i
  case std => exact .inl rfl
  case clp => exact .inr (.inl rfl)
  all_goals exact .inr (.inr rfl)

theorem lane_zero_of_decode (h : decode w = .ok i) : w.toNat / 4 = 5 ∨ w.toNat / 4 = 6 ∨ w.toNat % 4 = 0 := by
  obtain ⟨hopc, hlane⟩ := decode_eq_ok_iff_fields.mp h
  rw [← opcOf_toNat, ← laneOf_eq_zero_iff, ← hopc, ← hlane]
  exact (opcodeOf_or_laneField_eq_zero i).imp (congrArg BitVec.toNat) (Or.imp_left (congrArg BitVec.toNat))

/-! ### The words that are rejected -/

theorem decode_reservedOpcode (h : 10 ≤ w.toNat / 4) : decode w = .error .reservedOpcode := by
  rw [← opcOf_toNat] at h
  unfold decode
  split
  case h_11 => rfl
  all_goals omega

/-- The eight operation codes without a lane number (R82). -/
theorem exists_decode_eq_decodePlain (hle : w.toNat / 4 ≤ 9) (hstd : w.toNat / 4 ≠ 5) (hclp : w.toNat / 4 ≠ 6) :
    ∃ i, decode w = decodePlain w i := by
  rw [← opcOf_toNat] at hle hstd hclp
  have hopc : (opcOf w).toNat = 0 ∨ (opcOf w).toNat = 1 ∨ (opcOf w).toNat = 2 ∨ (opcOf w).toNat = 3 ∨
      (opcOf w).toNat = 4 ∨ (opcOf w).toNat = 7 ∨ (opcOf w).toNat = 8 ∨ (opcOf w).toNat = 9 := by omega
  obtain h | h | h | h | h | h | h | h := hopc <;> (rw [decode, h]; exact ⟨_, rfl⟩)

theorem decode_reservedLane (hle : w.toNat / 4 ≤ 9) (hstd : w.toNat / 4 ≠ 5) (hclp : w.toNat / 4 ≠ 6)
    (hlane : w.toNat % 4 ≠ 0) : decode w = .error .reservedLane := by
  obtain ⟨i, hi⟩ := exists_decode_eq_decodePlain hle hstd hclp
  rw [hi, decodePlain_of_lane_ne_zero hlane]

/-! ### Legal words and programs -/

/-- The check of R84 accepts exactly the words that decode. -/
theorem legal_iff_exists_decode : w.legal = true ↔ ∃ i, decode w = .ok i := by
  simp only [OpWord.legal, Bool.and_eq_true, Bool.or_eq_true, decide_eq_true_eq]
  constructor
  · rintro ⟨hle, hlane⟩
    by_cases hstd : w.toNat / 4 = 5
    · exact ⟨.std (laneOf w), by rw [decode, opcOf_toNat, hstd]; rfl⟩
    by_cases hclp : w.toNat / 4 = 6
    · exact ⟨.clp (laneOf w), by rw [decode, opcOf_toNat, hclp]; rfl⟩
    obtain ⟨i, hi⟩ := exists_decode_eq_decodePlain hle hstd hclp
    exact ⟨i, hi.trans (decodePlain_of_lane_zero (by omega) i)⟩
  · rintro ⟨i, hi⟩
    have hle : ¬10 ≤ w.toNat / 4 := fun h => by simp [decode_reservedOpcode h] at hi
    have hlane := lane_zero_of_decode hi
    omega

/-- A legal program is one that decodes word by word (R84, 93_implementation_defined.md U7). -/
theorem programLegal_iff {p : List OpWord} : programLegal p = true ↔ ∀ w ∈ p, ∃ i, decode w = .ok i := by
  simp only [programLegal, List.all_eq_true, legal_iff_exists_decode]

end Sys2Proof

namespace Sys2Proof.Machine

open Sys2Proof

variable {s t : State} {i : Instr}

/-! ### The codes on the output trace -/

/-- A sample widened to a DAC code has four zero bits below it (R72). -/
theorem widen_mod (b : Byte) : (widen b).toNat % 16 = 0 := by
  rw [widen_toNat, Nat.mul_mod_left]

/-- Both writes of a TICK are widened samples (40_engine_tick.md R105, R107). -/
theorem tickWrites_widened {x : DacWrite} (hx : x ∈ tickWrites s) : ∃ b, x.code = widen b := by
  unfold tickWrites at hx
  split at hx
  · obtain rfl | rfl := List.mem_pair.mp hx <;> exact ⟨_, rfl⟩
  · obtain rfl := List.mem_singleton.mp hx
    exact ⟨_, rfl⟩

/-- Only TICK writes to the DAC. -/
theorem writesOf_widened {x : DacWrite} (hx : x ∈ writesOf i s) : ∃ b, x.code = widen b := by
  by_cases hi : i = .tick
  · subst hi
    exact tickWrites_widened hx
  · simp [writesOf_of_ne_tick hi] at hx

theorem exec_keeps_codesWidened (hs : CodesWidened s) (h : exec i s = .next t) : CodesWidened t := by
  intro x hx
  rw [exec_trace h] at hx
  obtain hold | hnew := List.mem_append.mp hx
  · exact hs x hold
  · obtain ⟨b, hb⟩ := writesOf_widened hnew
    rw [hb, widen_mod]

theorem codesWidened_init (c : Config) (e : Env) : CodesWidened (State.init c e) := by
  simp [CodesWidened]

end Sys2Proof.Machine

namespace Sys2Proof.Proofs

open Sys2Proof Sys2Proof.Machine

/-- Settles O7: a word decodes to an operation exactly when it is the encoder's word for it. -/
theorem decodeAndEncodeAgree : Obligations.DecodeAndEncodeAgree :=
  ⟨decode_encode, fun _ _ => decode_eq_ok_iff.mp⟩

/-- Settles O6: each kind of reserved word, the count over the 64 words, and the check of a program word by word. -/
theorem reservedWordsAreRejected : Obligations.ReservedWordsAreRejected :=
  ⟨fun _ => decode_reservedOpcode, fun _ => decode_reservedLane, by decide, fun _ => programLegal_iff, by decide⟩

/-- Settles O52: the only codes a step appends are those of TICK, and both are widened samples. -/
theorem codesStayMultiplesOf16 : Obligations.CodesStayMultiplesOf16 :=
  fun _ _ => step_keeps (fun _ _ hs => hs) (fun _ hs => hs) (fun c e _ => codesWidened_init c e)
    (fun _ _ _ => exec_keeps_codesWidened)

/-- Settles O5: the words of the table are the encoder's, so each decodes to its operation. -/
theorem legalWordsDecode : Obligations.LegalWordsDecode :=
  ⟨decode_encode .start, decode_encode .samp, decode_encode .map, decode_encode .di, decode_encode .ei,
    decode_encode (.std 0), decode_encode (.std 1), decode_encode (.std 2), decode_encode (.std 3),
    decode_encode (.clp 0), decode_encode (.clp 1), decode_encode (.clp 2), decode_encode (.clp 3),
    decode_encode .rsts, decode_encode .dly, decode_encode .tick, fun _ _ => lane_zero_of_decode⟩

end Sys2Proof.Proofs
end

section
/-! SUPPORT. The engine's tick (40_engine_tick.md): PHASE after a TICK as a number, with and without a carry out of bit 31
(R101 to R103, R113, R116), the indices it presents and the writes it makes (R52, R108), and a run of TICKs (R113, R115). -/

namespace Sys2Proof.Machine

open Sys2Proof

variable {s t : State} {i : Instr}

/-! ### When TICK is selected -/

theorem tickDue_iff : tickDue s = true ↔ s.te = true ∧ s.tp = true := by
  simp [tickDue]

/-- TICK's word is in no row of the program, so only a due tick selects it (60_exceptions.md R185). -/
theorem nextWord_eq_some_tickWord_iff : nextWord s = some tickWord ↔ tickDue s = true := by
  constructor
  · intro hn
    obtain ⟨hdue, -, -⟩ | ⟨-, hi, -⟩ := nextWord_cases hn decode_tickWord
    · exact hdue
    · exact absurd rfl (programInstr_ne_tick hi)
  · exact nextWord_tick

/-! ### PHASE after a TICK -/

/-- The integer part is reduced modulo `N` and the fraction kept (R103). -/
theorem tickPhase_toNat (hw : s.cfg.wf = true) : (tickPhase s).toNat =
    (s.phase.toNat + s.pdelta.toNat) % 2 ^ 32 / 65536 % s.cfg.N * 65536 +
      (s.phase.toNat + s.pdelta.toNat) % 2 ^ 32 % 65536 := by
  rw [tickPhase, wrapPhase_toNat hw, BitVec.toNat_add]

theorem tickIdxA_eq (hw : s.cfg.wf = true) :
    tickIdxA s = (s.phase.toNat + s.pdelta.toNat) % 2 ^ 32 / 65536 % s.cfg.N := by
  rw [tickIdxA, intPart_wrapPhase hw, BitVec.toNat_add]

/-- Reducing the index and keeping the fraction is reducing the sum modulo the table (R113). -/
theorem tickPhase_toNat_of_lt (hw : s.cfg.wf = true) (h : s.phase.toNat + s.pdelta.toNat < 2 ^ 32) :
    (tickPhase s).toNat = (s.phase.toNat + s.pdelta.toNat) % (s.cfg.N * 65536) := by
  rw [tickPhase_toNat hw, Nat.mod_eq_of_lt h, Nat.mul_comm s.cfg.N, Nat.mod_mul, Nat.add_comm, Nat.mul_comm 65536]

/-- Neither the wrap nor a carry out of bit 31 reaches the fraction (R113). -/
theorem fracPart_tickPhase (hw : s.cfg.wf = true) : (fracPart (tickPhase s)).toNat =
    ((fracPart s.phase).toNat + (fracPart s.pdelta).toNat) % 65536 := by
  rw [tickPhase, fracPart_wrapPhase hw, BitVec.toNat_add, fracPart_toNat, fracPart_toNat]
  omega

/-- Two registers sum to less than 2^33, so the carry out of bit 31 takes away 2^32 once (R101, R116). -/
theorem tickIdxA_of_carry (hw : s.cfg.wf = true) (h : 2 ^ 32 ≤ s.phase.toNat + s.pdelta.toNat) :
    tickIdxA s = (s.phase.toNat + s.pdelta.toNat - 2 ^ 32) / 65536 % s.cfg.N := by
  have hphase := s.phase.isLt
  have hpdelta := s.pdelta.isLt
  have hwrap : (s.phase.toNat + s.pdelta.toNat) % 2 ^ 32 = s.phase.toNat + s.pdelta.toNat - 2 ^ 32 := by omega
  rw [tickIdxA_eq hw, hwrap]

/-- The carry that is lost is 65536 entries (R116). -/
theorem tickIdxA_add_of_carry (hw : s.cfg.wf = true) (h : 2 ^ 32 ≤ s.phase.toNat + s.pdelta.toNat) :
    (tickIdxA s + 65536 % s.cfg.N) % s.cfg.N = (s.phase.toNat + s.pdelta.toNat) / 65536 % s.cfg.N := by
  have hdiv : (s.phase.toNat + s.pdelta.toNat - 2 ^ 32) / 65536 + 65536 =
      (s.phase.toNat + s.pdelta.toNat) / 65536 := by omega
  rw [tickIdxA_of_carry hw h, ← Nat.add_mod, hdiv]

/-- No wrap is needed, and none is made, below `N` (R103). -/
theorem wrapPhase_of_lt {c : Config} {p : Word} (h : (intPart p).toNat < c.N) : wrapPhase c p = p :=
  if_neg (Nat.not_le.mpr h)

/-- Adding nothing to an integer part below `N` leaves nothing to wrap (R111). -/
theorem tickPhase_of_pdelta_eq_zero (hs : PhaseInRange s) (h0 : s.pdelta = 0) : tickPhase s = s.phase := by
  rw [tickPhase, h0, add_zero, wrapPhase_of_lt hs]

/-- Without a carry an increment acts as its remainder modulo the table (R117). -/
theorem tickPhase_setPdelta_mod (hw : s.cfg.wf = true) (h : s.phase.toNat + s.pdelta.toNat < 2 ^ 32) :
    tickPhase (s.setPdelta (BitVec.ofNat 32 (s.pdelta.toNat % (s.cfg.N * 65536)))) = tickPhase s := by
  have hle := Nat.mod_le s.pdelta.toNat (s.cfg.N * 65536)
  have hmod : (BitVec.ofNat 32 (s.pdelta.toNat % (s.cfg.N * 65536))).toNat = s.pdelta.toNat % (s.cfg.N * 65536) := by
    rw [BitVec.toNat_ofNat, Nat.mod_eq_of_lt (by omega)]
  apply BitVec.eq_of_toNat_eq
  rw [tickPhase_toNat_of_lt hw h, tickPhase_toNat_of_lt]
  · simp [hmod]
  · exact hw
  · simp only [State.setPdelta_phase, State.setPdelta_pdelta, hmod]
    omega

/-! ### The reads and the writes of a TICK -/

theorem tickReads_eq_cons (s : State) : tickReads s = BitVec.ofNat 16 (tickIdxA s) ::
    if s.cfg.dual then [BitVec.ofNat 16 (tickIdxB s)] else [] := by
  unfold tickReads
  split <;> rfl

theorem tickWrites_eq_cons (s : State) : tickWrites s = ⟨widen (waveAt s.cfg (tickIdxA s)), .A⟩ ::
    if s.cfg.dual then [⟨widen (waveAt s.cfg (tickIdxB s)), .B⟩] else [] := by
  unfold tickWrites
  split <;> rfl

theorem tickReads_length (s : State) : (tickReads s).length = if s.cfg.dual then 2 else 1 := by
  unfold tickReads
  split <;> rfl

theorem tickIdxB_lt (hw : s.cfg.wf = true) : tickIdxB s < s.cfg.N := quadIndex_lt (Config.wf.N_pos hw) _

/-- An index of the table fits the port `wt_idx` (R51). -/
theorem half_toNat_of_lt_N {c : Config} (hw : c.wf = true) {n : Nat} (h : n < c.N) :
    (BitVec.ofNat 16 n).toNat = n := by
  have hN := Config.wf.N_le hw
  rw [BitVec.toNat_ofNat, Nat.mod_eq_of_lt (by omega)]

theorem tickReads_lt (hw : s.cfg.wf = true) {x : Half} (hx : x ∈ tickReads s) : x.toNat < s.cfg.N := by
  have hA : (BitVec.ofNat 16 (tickIdxA s)).toNat < s.cfg.N := by
    rw [half_toNat_of_lt_N hw (tickIdxA_lt hw)]
    exact tickIdxA_lt hw
  have hB : (BitVec.ofNat 16 (tickIdxB s)).toNat < s.cfg.N := by
    rw [half_toNat_of_lt_N hw (tickIdxB_lt hw)]
    exact tickIdxB_lt hw
  unfold tickReads at hx
  split at hx
  · obtain rfl | rfl := List.mem_pair.mp hx
    · exact hA
    · exact hB
  · obtain rfl := List.mem_singleton.mp hx
    exact hA

/-- What is read and written depends on the configuration and the phase a TICK leaves, and on nothing else. -/
theorem tickReads_congr (hphase : tickPhase s = tickPhase t) (hcfg : s.cfg = t.cfg) : tickReads s = tickReads t := by
  simp only [tickReads, tickIdxB, tickIdxA, hcfg, hphase]

theorem tickWrites_congr (hphase : tickPhase s = tickPhase t) (hcfg : s.cfg = t.cfg) :
    tickWrites s = tickWrites t := by
  simp only [tickWrites, tickIdxB, tickIdxA, hcfg, hphase]

/-! ### A run of TICKs -/

theorem execSeq_cons {is : List Instr} (h : exec i s = .next t) : execSeq (i :: is) s = execSeq is t := by
  rw [execSeq, h, andThen_next]

theorem phaseInRange_iff : PhaseInRange s ↔ s.phase.toNat < s.cfg.N * 65536 := by
  rw [PhaseInRange, intPart_toNat, Nat.div_lt_iff_lt_mul (by decide)]

/-- From PHASE in range no add of the run carries out of bit 31, and so each is an add modulo the table (R113, R115). -/
theorem execSeq_ticks {n : Nat} (hs : PhaseInRange s) (hw : s.cfg.wf = true)
    (hle : s.cfg.N * 65536 + s.pdelta.toNat ≤ 2 ^ 32) :
    ∃ t, execSeq (List.replicate n .tick) s = .next t ∧ t.pdelta = s.pdelta ∧
      t.phase.toNat = (s.phase.toNat + n * s.pdelta.toNat) % (s.cfg.N * 65536) := by
  induction n generalizing s with
  | zero =>
    refine ⟨s, rfl, rfl, ?_⟩
    rw [Nat.zero_mul, Nat.add_zero, Nat.mod_eq_of_lt (phaseInRange_iff.mp hs)]
  | succ n ih =>
    have htick := exec_tick hw
    have hphase := tickPhase_toNat_of_lt hw (lt_of_lt_of_le (Nat.add_lt_add_right (phaseInRange_iff.mp hs) _) hle)
    obtain ⟨t, hrun, hpdelta, ht⟩ := ih (exec_keeps_phaseInRange hs htick) hw hle
    refine ⟨t, (execSeq_cons htick).trans hrun, hpdelta, ht.trans ?_⟩
    rw [hphase, Nat.mod_add_mod, Nat.succ_mul, Nat.add_assoc, Nat.add_comm s.pdelta.toNat]

end Sys2Proof.Machine

namespace Sys2Proof.Proofs

open Sys2Proof Sys2Proof.Machine

/-- Settles O27: `exec_tick` says which fields change, and the lemmas on phase, reads and writes what they hold. -/
theorem tickEffect : Obligations.TickEffect := by
  refine ⟨decode_tickWord, fun s => nextWord_eq_some_tickWord_iff.trans tickDue_iff, ?_⟩
  intro s hw p idx idxB
  have hA : tickIdxA s = idx := tickIdxA_eq hw
  have hB : tickIdxB s = idxB := congrArg (quadIndex s.cfg) hA
  refine ⟨_, exec_tick hw, rfl, tickPhase_toNat hw, ?_, _, _, widen_toNat _, widen_toNat _, ?_⟩
  · rw [tickReads_eq_cons, hA, hB]
  · rw [tickWrites_eq_cons, hA, hB]

/-- Settles O29: `exec_tick` completes, and both indices are remainders modulo `N`. -/
theorem tableReadsAreInRange : Obligations.TableReadsAreInRange :=
  fun s hw => ⟨_, tickReads s, exec_tick hw, rfl, tickReads_length s, fun _ => tickReads_lt hw⟩

/-- Settles O30: the fractions are added modulo 65536, and without a carry the whole sum is reduced modulo the table. -/
theorem phaseIsContinuous : Obligations.PhaseIsContinuous :=
  fun _ hw => ⟨_, exec_tick hw, fracPart_tickPhase hw, tickPhase_toNat_of_lt hw⟩

/-- Settles O31: the second index is `quadIndex` of the first, and both fit the port. -/
theorem quadratureOffset : Obligations.QuadratureOffset := by
  intro s hw hdual
  refine ⟨_, BitVec.ofNat 16 (tickIdxA s), BitVec.ofNat 16 (tickIdxB s), exec_tick hw, ?_, ?_, ?_, ?_⟩
  · simp only [tickReads, hdual, if_true]
  · exact BitVec.eq_of_toNat_eq (half_toNat_of_lt_N hw (tickIdxA_lt hw))
  · rw [half_toNat_of_lt_N hw (tickIdxA_lt hw), half_toNat_of_lt_N hw (tickIdxB_lt hw)]
    rfl
  · rw [half_toNat_of_lt_N hw (tickIdxA_lt hw)]
    simp only [tickWrites, hdual, if_true]
    rfl

/-- Settles O32: the index is that of the sum less 2^32, and 2^32 is 65536 entries. -/
theorem topOfRangeCorner : Obligations.TopOfRangeCorner :=
  fun _ hw h => ⟨_, exec_tick hw, tickIdxA_of_carry hw h, tickIdxA_add_of_carry hw h⟩

/-- Settles O28: the phase is held, and the two TICKs write the same because they leave the same phase. -/
theorem zeroIncrementHolds : Obligations.ZeroIncrementHolds := by
  intro s hw h0 hs
  have htick := exec_tick hw
  have hhold := tickPhase_of_pdelta_eq_zero hs h0
  have hhold' := tickPhase_of_pdelta_eq_zero (exec_keeps_phaseInRange hs htick) h0
  refine ⟨_, _, tickWrites s, htick, exec_tick hw, hhold, hhold'.trans hhold, ?_, rfl, ?_⟩
  · rw [tickWrites_eq_cons]
    exact List.cons_ne_nil _ _
  · exact congrArg _ (tickWrites_congr hhold' rfl)

/-- Settles O33: the two increments leave the same phase, and so the same reads and writes. -/
theorem largeIncrementsAreReduced : Obligations.LargeIncrementsAreReduced := by
  intro s hw h
  have hphase := (tickPhase_setPdelta_mod hw h).symm
  refine ⟨_, _, exec_tick hw, exec_tick (s := s.setPdelta _) hw, hphase, ?_, ?_⟩
  · exact congrArg (s.trace ++ ·) (tickWrites_congr hphase rfl)
  · exact congrArg (s.wtIdx ++ ·) (tickReads_congr hphase rfl)

/-- Settles O34, by induction over the number of TICKs. -/
theorem phaseAfterManyTicks : Obligations.PhaseAfterManyTicks :=
  fun _ _ hw hs => execSeq_ticks hs hw

end Sys2Proof.Proofs
end

section
/-! SUPPORT. Frequency control (41_frequency_control.md): the mapping's bounds, its one floor and its growth (R134 to R136,
R139, R140), the reading SAMP draws (R131), the increment MAP computes (R134), and stores to lanes one after another, which
make a publish (R137, R138). -/

namespace Sys2Proof.Machine

open Sys2Proof

variable {s : State} {c : Config}

/-! ### The mapping -/

/-- The clamp hides the reading 0 (R133). -/
theorem fmap_zero_eq_fmap_one (c : Config) : fmap c 0 = fmap c 1 := rfl

theorem fmap_of_pos {r : Nat} (h : 1 ≤ r) : fmap c r = c.N * c.scale * r / c.timerRate := by
  rw [fmap, frequencyWord, clampReading, Nat.max_eq_left h, Nat.mul_comm r, Nat.mul_assoc]

/-- `PD_MIN` is the mapping of the reading 0 (R135). -/
theorem fmap_zero (c : Config) : fmap c 0 = c.N * c.scale / c.timerRate := by
  rw [fmap_zero_eq_fmap_one, fmap_of_pos le_rfl, Nat.mul_one]

/-- `PD_MAX` is the mapping of the reading `ADC_MAX` (R135). -/
theorem fmap_adcMax (hc : c.wf = true) : fmap c c.adcMax = c.N * c.adcMax * c.scale / c.timerRate := by
  rw [fmap_of_pos (Config.wf.adcMax_pos hc), Nat.mul_right_comm]

theorem fmap_mono (c : Config) {r₁ r₂ : Nat} (h : r₁ ≤ r₂) : fmap c r₁ ≤ fmap c r₂ :=
  Nat.div_le_div_right (Nat.mul_le_mul_left _ (Nat.mul_le_mul_right _ (max_le_max_right 1 h)))

/-- By WF6 one more unit of the reading adds at least one whole unit to the quotient (R136). -/
theorem fmap_lt_fmap_succ (hc : c.wf = true) {r : Nat} (h : 1 ≤ r) : fmap c r < fmap c (r + 1) := by
  rw [fmap_of_pos h, fmap_of_pos (Nat.le_succ_of_le h)]
  calc c.N * c.scale * r / c.timerRate < c.N * c.scale * r / c.timerRate + 1 := Nat.lt_succ_self _
    _ = (c.N * c.scale * r + c.timerRate) / c.timerRate := (Nat.add_div_right _ (Config.wf.timerRate_pos hc)).symm
    _ ≤ c.N * c.scale * (r + 1) / c.timerRate :=
      Nat.div_le_div_right (Nat.add_le_add_left (Config.wf.timerRate_le hc) _)

theorem fmap_lt_fmap (hc : c.wf = true) {r₁ r₂ : Nat} (h : 1 ≤ r₁) (hlt : r₁ < r₂) : fmap c r₁ < fmap c r₂ :=
  lt_of_lt_of_le (fmap_lt_fmap_succ hc h) (fmap_mono c hlt)

/-- Two readings share a value only below the clamp (R136). -/
theorem eq_zero_one_of_fmap_eq (hc : c.wf = true) {r₁ r₂ : Nat} (hlt : r₁ < r₂) (heq : fmap c r₁ = fmap c r₂) :
    r₁ = 0 ∧ r₂ = 1 := by
  have h₁ : ¬1 ≤ r₁ := fun h => absurd heq (fmap_lt_fmap hc h hlt).ne
  obtain rfl : r₁ = 0 := by omega
  have h₂ : ¬1 < r₂ := fun h => absurd heq (fmap_lt_fmap hc le_rfl h).ne
  omega

/-- WF6 keeps the quotient from being 0 (R135). -/
theorem one_le_fmap (hc : c.wf = true) (r : Nat) : 1 ≤ fmap c r := by
  have hmin : 1 ≤ fmap c 0 := by
    rw [fmap_zero]
    exact Nat.div_pos (Config.wf.timerRate_le hc) (Config.wf.timerRate_pos hc)
  exact hmin.trans (fmap_mono c (Nat.zero_le r))

/-- The one division of the mapping is a floor (R139). -/
theorem fmap_floor (hc : c.wf = true) (r : Nat) : fmap c r * c.timerRate ≤ c.N * frequencyWord c r ∧
    c.N * frequencyWord c r < (fmap c r + 1) * c.timerRate :=
  ⟨Nat.div_mul_le_self _ _, (Nat.div_lt_iff_lt_mul (Config.wf.timerRate_pos hc)).mp (Nat.lt_succ_self _)⟩

/-- The values of R7: 256 * 12800 is 288 times 11363 and a remainder, R139's step of 288.37. -/
theorem fmap_default {r : Nat} (h : 1 ≤ r) : fmap Config.default r = 3276800 * r / 11363 := fmap_of_pos h

theorem fmap_default_succ {r : Nat} (h : 1 ≤ r) : fmap Config.default (r + 1) = fmap Config.default r + 288 ∨
    fmap Config.default (r + 1) = fmap Config.default r + 289 := by
  rw [fmap_default h, fmap_default (Nat.le_succ_of_le h)]
  omega

/-! ### SAMP and MAP -/

/-- A listed reading is the one drawn, and the next one stands first after it (R196). -/
theorem drawReading_listed {e e' : Env} {r x : Half} {xs : List Half} (h : drawReading c e = some (r, e'))
    (he : e.readings = x :: xs) : r = x ∧ e' = { e with readings := xs } := by
  rw [drawReading, he] at h
  obtain ⟨-, h⟩ := Option.ite_none_right_eq_some.mp h
  cases h
  exact ⟨rfl, rfl⟩

/-- SAMP, whole, where the listed readings keep the environment's contract (R131). -/
theorem exec_samp_of_legal (hw : s.cfg.wf = true) (hs : ReadingsLegal s) :
    ∃ r e, r.toNat ≤ s.cfg.adcMax ∧ exec .samp s = .next { s with raw := r, fgs := 2, env := e } ∧
      ∀ x xs, s.env.readings = x :: xs → r = x ∧ e = { s.env with readings := xs } := by
  obtain ⟨r, e, hdraw⟩ := drawReading_isSome hs
  obtain ⟨hle, -⟩ := drawReading_cases hw hdraw
  exact ⟨r, e, hle, exec_samp hw hdraw, fun _ _ => drawReading_listed hdraw⟩

theorem increment_of_le (hc : c.wf = true) {r : Half} (hr : r.toNat ≤ c.adcMax) :
    increment c r = BitVec.ofNat 32 (fmap c r.toNat) :=
  if_pos (fmap_lt hc hr)

/-! ### Lane stores one after another -/

/-- `u` with the lanes of `l` taken from `v`, stored in the order of `l`. -/
def copyLanes (v : Word) (l : List Lane) (u : Word) : Word :=
  l.foldl (fun w k => setlane w k (lane v k)) u

theorem lane_copyLanes (v : Word) (l : List Lane) (u : Word) (j : Lane) :
    lane (copyLanes v l u) j = if j ∈ l then lane v j else lane u j := by
  induction l generalizing u with
  | nil => rfl
  | cons k l ih =>
    refine (ih _).trans ?_
    by_cases hl : j ∈ l
    · simp [hl]
    · by_cases hk : j = k <;> simp [lane_setlane, hl, hk]

/-- The four lanes are the register, whatever it held (R138). -/
theorem copyLanes_all (v u : Word) : copyLanes v [0, 1, 2, 3] u = v := by
  have hall : ∀ k : Lane, k ∈ [0, 1, 2, 3] := by decide
  exact word_eq_of_lanes fun k => by rw [lane_copyLanes, if_pos (hall k)]

theorem execSeq_append (is js : List Instr) (s : State) : execSeq (is ++ js) s = andThen (execSeq is s) (execSeq js) := by
  induction is generalizing s with
  | nil => rfl
  | cons i is ih =>
    rw [List.cons_append, execSeq, execSeq]
    cases exec i s with
    | next t => exact ih t
    | fault r => rfl
    | refused r => rfl

/-- STDs of the lanes of `l` copy those lanes of STAGE to PDELTA and advance FGS once each (R137). -/
theorem execSeq_stds (hw : s.cfg.wf = true) (l : List Lane) : execSeq (l.map .std) s =
    .next { s with pdelta := copyLanes s.stage l s.pdelta, fgs := s.fgs + BitVec.ofNat 5 l.length } := by
  induction l generalizing s with
  | nil => simp [execSeq, copyLanes]
  | cons k l ih =>
    rw [List.length_cons, Nat.add_comm, BitVec.ofNat_add, ← BitVec.add_assoc]
    exact (execSeq_cons (exec_std hw k)).trans (ih (s := advance _) hw)

/-! ### PUBLISH -/

theorem exec_di_guarded (hw : s.cfg.wf = true) (hg : s.cfg.fgGuard = true) :
    exec .di s = .next { s with te := false, fgs := s.fgs + 1 } := by
  rw [exec_di hw, enterCritical, if_pos hg]
  rfl

theorem exec_ei_guarded (hw : s.cfg.wf = true) (hg : s.cfg.fgGuard = true) :
    exec .ei s = .next { s with te := true, fgs := s.fgs + 1 } := by
  rw [exec_ei hw, leaveCritical, if_pos hg]
  rfl

theorem publish_eq : publish = .di :: (([0, 1, 2, 3] : List Lane).map .std ++ [.ei]) := rfl

/-- The critical section leaves TE at 1, and the four stores between its ends copy the whole register (R138). -/
theorem execSeq_publish (hw : s.cfg.wf = true) (hg : s.cfg.fgGuard = true) :
    execSeq publish s = .next { s with pdelta := s.stage, te := true, fgs := s.fgs + 6 } := by
  have hfgs : s.fgs + 1 + BitVec.ofNat 5 4 + 1 = s.fgs + 6 := by
    rw [BitVec.add_assoc, BitVec.add_assoc]
    rfl
  rw [publish_eq, execSeq_cons (exec_di_guarded hw hg), execSeq_append, execSeq_stds (by exact hw), andThen_next,
    copyLanes_all, ← hfgs]
  exact execSeq_cons (exec_ei_guarded hw hg)

end Sys2Proof.Machine

namespace Sys2Proof.Proofs

open Sys2Proof Sys2Proof.Machine

/-- Settles O20: STD is a store to a lane address, and `laneAt_memWrite` says what such a store leaves alone. -/
theorem stdStoresOneLane : Obligations.StdStoresOneLane := by
  intro k s
  have hword : encode (.std k) = 0x14 + k.setWidth 6 := by revert k; decide
  refine ⟨decode_eq_ok_iff.mpr hword, fun hw =>
    ⟨_, exec_std hw k, rfl, fun j => lane_setlane s.pdelta k j (lane s.stage k), fun a ha => ?_⟩⟩
  have hframe := laneAt_memWrite (stdAddr k) (lane s.stage k) s a
  rw [if_neg ha, memWrite_stdAddr] at hframe
  exact hframe

/-- Settles O37. -/
theorem publishCopiesStage : Obligations.PublishCopiesStage :=
  fun _ => execSeq_publish

/-- Settles O39: SAMP, MAP and PUBLISH one after another, each by its own rule. -/
theorem updatePublishesTheReading : Obligations.UpdatePublishesTheReading := by
  intro s hw hg hs
  obtain ⟨r, e, hle, hsamp, hlisted⟩ := exec_samp_of_legal hw hs
  have hmap := exec_map (s := { s with raw := r, fgs := 2, env := e }) hw
  have hrun := (execSeq_cons hsamp).trans ((execSeq_cons hmap).trans (execSeq_publish hw hg))
  refine ⟨_, hrun, hle, increment_toNat hw hle, fun x xs hx => ?_, rfl, rfl, rfl⟩
  obtain ⟨hr, -⟩ := hlisted x xs hx
  exact hr

/-- Settles O43: the bounds are the mapping at 0 and at `ADC_MAX`. -/
theorem mappingBounds : Obligations.MappingBounds := by
  refine ⟨fun c r hc hr => ?_, rfl, rfl⟩
  rw [← fmap_zero, ← fmap_adcMax hc]
  exact ⟨one_le_fmap hc 0, fmap_mono c (Nat.zero_le r), fmap_mono c hr, fmap_floor hc r⟩

/-- Settles O44: strict growth from 1 on leaves the clamp as the only source of a tie. -/
theorem mappingIsMonotone : Obligations.MappingIsMonotone :=
  ⟨fun c _ _ hc _ => ⟨fmap_mono c, fmap_lt_fmap hc, eq_zero_one_of_fmap_eq hc⟩, fmap_zero_eq_fmap_one, rfl, rfl,
    fun _ h _ => fmap_default_succ h⟩

/-- Settles O17. -/
theorem sampTakesAReading : Obligations.SampTakesAReading :=
  ⟨decode_encode .samp, fun _ => exec_samp_of_legal⟩

/-- Settles O19: WF5 bounds the product, WF6 the quotient from below, and MAP itself asks nothing of RAW. -/
theorem mapComputesTheIncrement : Obligations.MapComputesTheIncrement := by
  refine ⟨decode_encode .map, fun s hw hr => ⟨Nat.lt_succ_of_le (product_le hw hr), one_le_fmap hw _, ?_⟩,
    fun s hw => ⟨_, exec_map hw⟩⟩
  rw [exec_map hw, increment_of_le hw hr]
  rfl

end Sys2Proof.Proofs
end

section
/-! SUPPORT. The phase reset (42_phase_reset.md): the level RSTS samples (R150), stores of zero to lanes of PHASE one after
another, which make a clear inside a critical section (R152, R153), and the first TICK after it (R154). -/

namespace Sys2Proof.Machine

open Sys2Proof

variable {s t : State}

/-! ### RSTS -/

/-- A listed level is the one sampled, and the next one stands first after it (R150, R197). -/
theorem drawLevel_listed {e : Env} {x : Bool} {xs : List Bool} (h : e.levels = x :: xs) :
    drawLevel e = (x, { e with levels := xs }) := by
  rw [drawLevel, h]

/-! ### CLEAR -/

/-- CLPs of the lanes of `l` copy those lanes of the zero word to PHASE and advance FGS once each (R152). -/
theorem execSeq_clps (hw : s.cfg.wf = true) (l : List Lane) : execSeq (l.map .clp) s =
    .next { s with phase := copyLanes 0 l s.phase, fgs := s.fgs + BitVec.ofNat 5 l.length } := by
  induction l generalizing s with
  | nil => simp [execSeq, copyLanes]
  | cons k l ih =>
    have hclp := exec_clp hw k
    rw [← lane_zero k] at hclp
    rw [List.length_cons, Nat.add_comm, BitVec.ofNat_add, ← BitVec.add_assoc]
    exact (execSeq_cons hclp).trans (ih (s := advance _) hw)

/-- Under the guard what stands between DI and EI runs with TE = 0, and TE is 1 afterwards (43_sequencing.md R162,
R163). -/
theorem execSeq_criticalSection {is : List Instr} (hw : s.cfg.wf = true) (hg : s.cfg.fgGuard = true)
    (h : execSeq is { s with te := false, fgs := s.fgs + 1 } = .next t) (hcfg : t.cfg = s.cfg) :
    execSeq (.di :: (is ++ [.ei])) s = .next { t with te := true, fgs := t.fgs + 1 } := by
  rw [execSeq_cons (exec_di_guarded hw hg), execSeq_append, h, andThen_next]
  exact execSeq_cons (exec_ei_guarded (hcfg ▸ hw) (hcfg ▸ hg))

theorem clear_eq : clear = .di :: (([0, 1, 2, 3] : List Lane).map .clp ++ [.ei]) := rfl

/-- The four stores between the ends of the critical section clear the whole register (R153). -/
theorem execSeq_clear (hw : s.cfg.wf = true) (hg : s.cfg.fgGuard = true) :
    execSeq clear s = .next { s with phase := 0, te := true, fgs := s.fgs + 6 } := by
  have hfgs : s.fgs + 1 + BitVec.ofNat 5 4 + 1 = s.fgs + 6 := by
    rw [BitVec.add_assoc, BitVec.add_assoc]
    rfl
  have hclps := execSeq_clps (s := { s with te := false, fgs := s.fgs + 1 }) hw [0, 1, 2, 3]
  rw [clear_eq, execSeq_criticalSection hw hg hclps rfl, ← hfgs, copyLanes_all]
  rfl

/-! ### The first TICK after a clear -/

theorem phase_add_pdelta_of_phase_zero (h : s.phase = 0) : s.phase.toNat + s.pdelta.toNat = s.pdelta.toNat := by
  rw [h]
  exact Nat.zero_add _

/-- From PHASE = 0 the sum is the increment itself, which cannot carry (R154). -/
theorem tickPhase_toNat_of_phase_zero (hw : s.cfg.wf = true) (h : s.phase = 0) :
    (tickPhase s).toNat = s.pdelta.toNat % (s.cfg.N * 65536) := by
  have hsum := phase_add_pdelta_of_phase_zero h
  rw [tickPhase_toNat_of_lt hw (hsum.trans_lt s.pdelta.isLt), hsum]

/-- The index of that TICK is the increment's own integer part, reduced (R154). -/
theorem tickIdxA_of_phase_zero (hw : s.cfg.wf = true) (h : s.phase = 0) :
    tickIdxA s = (intPart s.pdelta).toNat % s.cfg.N := by
  rw [tickIdxA_eq hw, phase_add_pdelta_of_phase_zero h, Nat.mod_eq_of_lt s.pdelta.isLt, intPart_toNat]

end Sys2Proof.Machine

namespace Sys2Proof.Proofs

open Sys2Proof Sys2Proof.Machine

/-- Settles O21: CLP is a store of zero to a lane address, so `laneAt_memWrite` gives its frame in the lane space. -/
theorem clpClearsOneLane : Obligations.ClpClearsOneLane := by
  intro k s
  have hword : encode (.clp k) = 0x18 + k.setWidth 6 := by revert k; decide
  refine ⟨decode_eq_ok_iff.mpr hword, fun hw => ⟨_, exec_clp hw k, rfl, fun j => lane_setlane s.phase k j 0,
    fun a ha => ?_, intPart_setlane_zero_le s.phase k⟩⟩
  have hframe := laneAt_memWrite (clpAddr k) 0 s a
  rw [if_neg ha, memWrite_clpAddr] at hframe
  exact hframe

/-- Settles O36: below 65536 the increment has no integer part. -/
theorem firstTickAfterAClear : Obligations.FirstTickAfterAClear := by
  intro s hw h0
  have hidx := tickIdxA_of_phase_zero hw h0
  refine ⟨_, exec_tick hw, tickPhase_toNat_of_phase_zero hw h0, hidx, fun hlt => hidx.trans ?_⟩
  rw [intPart_toNat, Nat.div_eq_of_lt hlt, Nat.zero_mod]

/-- Settles O38. -/
theorem clearZeroesPhase : Obligations.ClearZeroesPhase :=
  fun _ => execSeq_clear

/-- Settles O22: the level and the environment after it are the two components of `drawLevel`. -/
theorem rstsSamplesTheLine : Obligations.RstsSamplesTheLine := by
  refine ⟨decode_encode .rsts, fun s hw => ⟨(drawLevel s.env).1, (drawLevel s.env).2, exec_rsts hw, ?_⟩⟩
  intro x xs hx
  exact Prod.ext_iff.mp (drawLevel_listed hx)

end Sys2Proof.Proofs
end

section
/-! SUPPORT. Sequencing (43_sequencing.md): DI and EI without the guard (R164), what a step does to TE and FGS (R170,
R185), and the rows of the program with their successors (R171) and their TE (R174). -/

namespace Sys2Proof.Machine

open Sys2Proof

variable {s t : State} {i : Instr} {f : FgCode}

/-! ### DI and EI without the guard -/

theorem exec_di_unguarded (hw : s.cfg.wf = true) (hg : s.cfg.fgGuard = false) :
    exec .di s = .next { s with fgs := s.fgs + 1 } := by
  rw [exec_di hw, enterCritical, if_neg (ne_true_of_eq_false hg)]
  rfl

theorem exec_ei_unguarded (hw : s.cfg.wf = true) (hg : s.cfg.fgGuard = false) :
    exec .ei s = .next { s with fgs := s.fgs + 1 } := by
  rw [exec_ei hw, leaveCritical, if_neg (ne_true_of_eq_false hg)]
  rfl

/-! ### The rows of the program -/

/-- No row is followed by the state after reset (R171). -/
theorem one_le_fgsAfter (h : programInstr f = some i) (high : Bool) : 1 ≤ (fgsAfter i f high).toNat := by
  have hall : ∀ f : FgCode, ∀ i ∈ programInstr f, ∀ high, 1 ≤ (fgsAfter i f high).toNat := by decide
  exact hall f i h high

/-- SAMP is the operation of state 1 alone (R170). -/
theorem fgs_of_samp (h : programInstr f = some .samp) : f = 1 := by
  revert f; decide

/-- The lane stores stand inside the critical sections (R174). -/
theorem teAt_of_laneStore {k : Lane} (h : programInstr f = some (.std k) ∨ programInstr f = some (.clp k)) :
    teAt f = false := by
  revert f k; decide

/-- SAMP, MAP, RSTS and DLY stand outside the critical sections (R174). -/
theorem teAt_of_interruptible (h : programInstr f = some .samp ∨ programInstr f = some .map ∨
    programInstr f = some .rsts ∨ programInstr f = some .dly) : teAt f = true := by
  revert f; decide

/-- A selected word other than TICK's is that of the row FGS names. -/
theorem programInstr_of_nextWord {w : OpWord} (hn : nextWord s = some w) (hd : decode w = .ok i) (hi : i ≠ .tick) :
    programInstr s.fgs = some i := by
  obtain ⟨-, -, rfl⟩ | ⟨-, hrow, -⟩ := nextWord_cases hn hd
  · exact absurd rfl hi
  · exact hrow

/-! ### TE and FGS after a step -/

theorem tickDue_eq_false_iff : tickDue s = false ↔ ¬(s.te = true ∧ s.tp = true) := by
  rw [← tickDue_iff, Bool.not_eq_true]

/-- What a step does to TE and FGS: a block reset clears both, a timer event and a due TICK leave both alone, and a
foreground step is the row of the program that FGS names. -/
theorem step_sequencer_cases (h : step s = .next t) :
    (turnOf s = .blockReset ∧ t.te = false ∧ t.fgs = 0) ∨
    ((turnOf s = .timer ∨ tickDue s = true) ∧ t.te = s.te ∧ t.fgs = s.fgs) ∨
    (turnOf s = .run ∧ tickDue s = false ∧ ∃ i, programInstr s.fgs = some i ∧ t.opId = some (encode i) ∧
      t.te = teAfter i s.cfg.fgGuard s.te ∧ t.fgs = fgsAfter i s.fgs t.rsf) := by
  obtain ⟨-, ⟨ht, -, rfl⟩ | ⟨ht, rfl⟩ | ⟨ht, w, i, hn, hd, hex⟩⟩ := stepWith_cases h
  · exact .inr (.inl ⟨.inl ht, rfl, rfl⟩)
  · exact .inl ⟨ht, rfl, rfl⟩
  · obtain ⟨-, hop⟩ := exec_cfg hex
    have hte := exec_te hex
    have hfgs := exec_fgs hex
    obtain ⟨hdue, -, rfl⟩ | ⟨hdue, hi, rfl⟩ := nextWord_cases hn hd
    · exact .inr (.inl ⟨.inr hdue, hte, hfgs⟩)
    · exact .inr (.inr ⟨ht, hdue, i, hi, hop, hte, hfgs⟩)

/-- A foreground step shows the word of its row and moves to the row's successor (R170). -/
theorem step_foreground (ht : turnOf s = .run) (hdue : tickDue s = false) (h : step s = .next t) :
    ∃ i, programInstr s.fgs = some i ∧ t.opId = some (encode i) ∧ t.fgs = fgsAfter i s.fgs t.rsf := by
  obtain ⟨ht', -⟩ | ⟨ht' | hdue', -⟩ | ⟨-, -, i, hi, hop, -, hfgs⟩ := step_sequencer_cases h
  · simp [ht] at ht'
  · simp [ht] at ht'
  · simp [hdue] at hdue'
  · exact ⟨i, hi, hop, hfgs⟩

/-- Every row completes, SAMP's where the listed readings keep the environment's contract (60_exceptions.md R196). -/
theorem exec_program_completes (hw : s.cfg.wf = true) (hi : programInstr s.fgs = some i)
    (hr : s.fgs = 1 → ReadingsLegal s) : ∃ t, exec i s = .next t := by
  by_cases hsamp : i = .samp
  · subst hsamp
    obtain ⟨r, e, -, hex, -⟩ := exec_samp_of_legal hw (hr (fgs_of_samp hi))
    exact ⟨_, hex⟩
  · exact exec_completes_of_ne_samp hw hsamp

theorem readingsLegal_beginStep (op : Option OpWord) (h : ReadingsLegal s) : ReadingsLegal (beginStep op s) := by
  simpa [ReadingsLegal] using h

theorem step_foreground_completes (hw : s.cfg.wf = true) (ht : turnOf s = .run) (hdue : tickDue s = false)
    (hr : s.fgs = 1 → ReadingsLegal s) (hf : SequencerLegal s) : ∃ t, step s = .next t := by
  obtain ⟨i, hi⟩ := exists_programInstr hf
  rw [step_program hw ht hdue hi]
  exact exec_program_completes hw hi fun hone => readingsLegal_beginStep _ (hr hone)

theorem step_keeps_sequencerLegal (hs : SequencerLegal s) (h : step s = .next t) : SequencerLegal t := by
  rw [SequencerLegal]
  obtain ⟨-, -, hfgs⟩ | ⟨-, -, hfgs⟩ | ⟨-, -, i, hi, -, -, hfgs⟩ := step_sequencer_cases h
  · simp [hfgs]
  · rw [hfgs]; exact hs
  · rw [hfgs]; exact fgsAfter_legal hi t.rsf

/-- Under the guard every row leaves TE as its successor has it (R174). -/
theorem step_keeps_ticksAsProgrammed (hg : s.cfg.fgGuard = true) (hs : TicksAsProgrammed s) (h : step s = .next t) :
    TicksAsProgrammed t := by
  rw [TicksAsProgrammed]
  obtain ⟨-, hte, hfgs⟩ | ⟨-, hte, hfgs⟩ | ⟨-, -, i, hi, -, hte, hfgs⟩ := step_sequencer_cases h
  · rw [hte, hfgs]; rfl
  · rw [hte, hfgs]; exact hs
  · rw [hte, hfgs, hg, hs]; exact teAfter_teAt hi t.rsf

end Sys2Proof.Machine

namespace Sys2Proof.Proofs

open Sys2Proof Sys2Proof.Machine

/-- Settles O12: the rows of `programInstr` one by one, each with the word and the successor of its operation. -/
theorem foregroundProgramRows : Obligations.ForegroundProgramRows := by
  intro s hw ht hnotDue hr hf
  have hdue := tickDue_eq_false_iff.mpr hnotDue
  obtain ⟨t, hstep⟩ := step_foreground_completes hw ht hdue hr hf
  obtain ⟨j, hj, hop, hfgs⟩ := step_foreground ht hdue hstep
  have row {f : FgCode} (i : Instr) (hs : s.fgs = f) (hi : programInstr f = some i) :
      t.opId = some (encode i) ∧ t.fgs = fgsAfter i f t.rsf := by
    obtain rfl : j = i := by rw [hs, hi] at hj; exact (Option.some.inj hj).symm
    exact ⟨hop, hs ▸ hfgs⟩
  exact ⟨t, hstep, fun h => row .start h rfl, fun h => row .samp h rfl, fun h => row .map h rfl,
    fun h => row .di h rfl,
    fun h => row (.std 0) h rfl, fun h => row (.std 1) h rfl, fun h => row (.std 2) h rfl, fun h => row (.std 3) h rfl,
    fun h => row .ei h rfl, fun h => row .rsts h rfl, fun h => row .di h rfl,
    fun h => row (.clp 0) h rfl, fun h => row (.clp 1) h rfl, fun h => row (.clp 2) h rfl, fun h => row (.clp 3) h rfl,
    fun h => row .ei h rfl, fun h => row .dly h rfl⟩

/-- Settles O13: a foreground step takes a row's successor, a code 1 to 16; any other step leaves FGS alone or at 0. -/
theorem successorsAreCodes1To16 : Obligations.SuccessorsAreCodes1To16 := by
  refine ⟨fun _ _ => step_keeps_sequencerLegal, fun s t ht hnotDue h => ?_⟩
  obtain ⟨i, hi, -, hfgs⟩ := step_foreground ht (tickDue_eq_false_iff.mpr hnotDue) h
  rw [hfgs]
  exact ⟨one_le_fgsAfter hi t.rsf, fgsAfter_legal hi t.rsf⟩

/-- Settles O51: a selected word that is not TICK's is that of the row FGS names, and `teAt` of that row is TE. -/
theorem tickEnableFollowsTheProgram : Obligations.TickEnableFollowsTheProgram := by
  refine ⟨by decide, fun _ _ => rfl, fun s w hs hn => ⟨fun k hk => hs.trans (teAt_of_laneStore (k := k) ?_),
    fun hi => hs.trans (teAt_of_interruptible ?_)⟩, fun _ _ hg _ => step_keeps_ticksAsProgrammed hg⟩
  · exact hk.imp (programInstr_of_nextWord hn · nofun) (programInstr_of_nextWord hn · nofun)
  · exact hi.imp (programInstr_of_nextWord hn · nofun) (.imp (programInstr_of_nextWord hn · nofun)
      (.imp (programInstr_of_nextWord hn · nofun) (programInstr_of_nextWord hn · nofun)))

/-- Settles O8: the state the operation is run on is `beginStep`, written out. -/
theorem stepRunsTheSelectedOperation : Obligations.StepRunsTheSelectedOperation :=
  fun _ _ _ hw ht hn hd => (stepWith_run hw ht).trans (blockStep_eq hn hd)

/-- Settles O16. -/
theorem startEffect : Obligations.StartEffect :=
  fun _ => exec_start

/-- Settles O23. -/
theorem dlyEffect : Obligations.DlyEffect :=
  ⟨decode_encode .dly, fun _ => exec_dly⟩

/-- Settles O24: with TE = 0 no tick is due, and with TE = 1 a pending one is. -/
theorem criticalSectionOperations : Obligations.CriticalSectionOperations := by
  intro s hw hg
  have hdi := exec_di_guarded hw hg
  have hei := exec_ei_guarded hw hg
  refine ⟨hdi, hei, fun t h => ?_, fun t h => ?_⟩
  · rw [hdi] at h; cases h
    exact Bool.false_and s.tp
  · rw [hei] at h; cases h
    exact Bool.true_and s.tp

/-- Settles O25. -/
theorem unguardedCriticalSectionOperations : Obligations.UnguardedCriticalSectionOperations :=
  fun _ hw hg => ⟨exec_di_unguarded hw hg, exec_ei_unguarded hw hg⟩

end Sys2Proof.Proofs
end

section
/-! SUPPORT. Exceptions and the environment (60_exceptions.md): which operations stop and how (R180, R196), the timer event
and its overrun (R183, R184), and the dispatch of the tick with what a step does to TP (R185, R186, R188). -/

namespace Sys2Proof.Machine

open Sys2Proof

variable {s t : State} {i : Instr}

/-! ### How an operation stops -/

/-- A listed reading above ADC_MAX answers no draw (93_implementation_defined.md U5). -/
theorem drawReading_outOfRange {c : Config} {e : Env} {x : Half} {xs : List Half} (he : e.readings = x :: xs)
    (hx : c.adcMax < x.toNat) : drawReading c e = none := by
  rw [drawReading, he]
  exact if_neg (Nat.not_le.mpr hx)

theorem exec_samp_refused (hw : s.cfg.wf = true) (hdraw : drawReading s.cfg s.env = none) :
    exec .samp s = .refused .readingOutOfRange := by
  simp [exec, execSamp, configured_wf hw, hdraw]

/-- SAMP alone asks anything of the listed readings (R196). -/
theorem exec_completes (hw : s.cfg.wf = true) (hr : i = .samp → ReadingsLegal s) : ∃ t, exec i s = .next t := by
  by_cases hsamp : i = .samp
  · subst hsamp
    obtain ⟨r, e, -, hex, -⟩ := exec_samp_of_legal hw (hr rfl)
    exact ⟨_, hex⟩
  · exact exec_completes_of_ne_samp hw hsamp

/-- SAMP without a reading is refused, which is no fault, and every other operation completes. -/
theorem exec_ne_fault (hw : s.cfg.wf = true) (r : Fault) : exec i s ≠ .fault r := by
  by_cases hsamp : i = .samp
  · subst hsamp
    cases hdraw : drawReading s.cfg s.env with
    | none => rw [exec_samp_refused hw hdraw]; nofun
    | some p => rw [exec_samp hw hdraw]; nofun
  · obtain ⟨t, hex⟩ := exec_completes_of_ne_samp hw hsamp
    rw [hex]; nofun

/-! ### The timer event -/

theorem step_timer (hw : s.cfg.wf = true) (ht : turnOf s = .timer) : step s = timerEvent (beginStep none s) := by
  simp [step, stepWith, configured_wf hw, ht]

theorem timerEvent_idle (h : s.tp = false) : timerEvent s = .next (s.setTp true) := by
  simp [timerEvent, latchTick, h]

theorem timerEvent_overrun (h : s.tp = true) : timerEvent s = .fault .timerOverrun := by
  simp [timerEvent, h]

/-! ### The tick -/

/-- A step shows TICK's word exactly when the block acts and a tick is due (R185). -/
theorem step_opId_tickWord_iff (h : step s = .next t) :
    t.opId = some tickWord ↔ turnOf s = .run ∧ tickDue s = true := by
  obtain ⟨-, ⟨ht, -, rfl⟩ | ⟨ht, rfl⟩ | ⟨ht, w, i, hn, -, hex⟩⟩ := stepWith_cases h
  · simp [ht]
  · simp [ht]
  · rw [(exec_cfg hex).2, beginStep_opId, ← hn, nextWord_eq_some_tickWord_iff]
    simp [ht]

/-- TP after a step that completes: a timer event sets it, a block reset and a TICK clear it, and a foreground step leaves
it alone (R183, R186, R188). -/
theorem step_tp_cases (h : step s = .next t) :
    (turnOf s = .timer ∧ t.tp = true) ∨ (turnOf s = .blockReset ∧ t.tp = false) ∨
    (turnOf s = .run ∧ t.tp = (s.tp && !tickDue s)) := by
  obtain ⟨-, ⟨ht, -, rfl⟩ | ⟨ht, rfl⟩ | ⟨ht, w, i, hn, hd, hex⟩⟩ := stepWith_cases h
  · exact .inl ⟨ht, rfl⟩
  · exact .inr (.inl ⟨ht, rfl⟩)
  · refine .inr (.inr ⟨ht, ?_⟩)
    rw [exec_tp hex, beginStep_tp]
    obtain ⟨hdue, -, rfl⟩ | ⟨hdue, hi, -⟩ := nextWord_cases hn hd
    · simp [hdue]
    · simp [hdue, programInstr_ne_tick hi]

end Sys2Proof.Machine

namespace Sys2Proof.Proofs

open Sys2Proof Sys2Proof.Machine

/-- Settles O11: a due tick is performed whatever FGS is, and no other step shows TICK's word. -/
theorem pendingEnabledTickGoesFirst : Obligations.PendingEnabledTickGoesFirst := by
  constructor
  · intro s hw ht hte htp
    have htick := exec_tick (s := beginStep (some tickWord) s) hw
    exact ⟨_, (step_tickDue hw ht (tickDue_iff.mpr ⟨hte, htp⟩)).trans htick, rfl, htick⟩
  · intro s t hoff h htick
    obtain ⟨-, hdue⟩ := (step_opId_tickWord_iff h).mp htick
    obtain ⟨hte, htp⟩ := tickDue_iff.mp hdue
    simp [hte, htp] at hoff

/-- Settles O45. -/
theorem everyOperationCompletes : Obligations.EveryOperationCompletes :=
  fun _ _ hw => ⟨exec_completes hw, exec_ne_fault hw⟩

/-- Settles O54: a step that shows TICK's word is a due TICK, which clears TP, and only a timer event sets it. -/
theorem ticksAreSeparatedByTimerEvents : Obligations.TicksAreSeparatedByTimerEvents := by
  intro s t h
  constructor
  · intro htick
    obtain ⟨ht, hdue⟩ := (step_opId_tickWord_iff h).mp htick
    obtain ⟨-, htp⟩ := tickDue_iff.mp hdue
    obtain ⟨ht', -⟩ | ⟨ht', -⟩ | ⟨-, htp'⟩ := step_tp_cases h
    · simp [ht] at ht'
    · simp [ht] at ht'
    · exact ⟨htp, by simp [htp', hdue]⟩
  · intro htp hnotTimer
    obtain ⟨ht, -⟩ | ⟨-, htp'⟩ | ⟨-, htp'⟩ := step_tp_cases h
    · exact absurd ht hnotTimer
    · exact htp'
    · simp [htp', htp]

/-- Settles O9. -/
theorem timerEventSetsPending : Obligations.TimerEventSetsPending :=
  fun _ hw ht htp => ⟨_, (step_timer hw ht).trans (timerEvent_idle htp), rfl⟩

/-- Settles O10. -/
theorem overrunIsAFault : Obligations.OverrunIsAFault :=
  fun _ hw ht htp => (step_timer hw ht).trans (timerEvent_overrun htp)

/-- Settles O18. -/
theorem readingAboveRangeIsRefused : Obligations.ReadingAboveRangeIsRefused :=
  fun _ _ _ hw hreadings hx => exec_samp_refused hw (drawReading_outOfRange hreadings hx)

end Sys2Proof.Proofs
end

section
/-! SUPPORT. The guard (70_reset_and_hazards.md R222): the invariant of the guarded machine, row by row of the program, and
the machine with atomic publish and clear that it refines. -/

namespace Sys2Proof.Machine

open Sys2Proof

variable {s t a : State} {i : Instr} {f : FgCode} {k : Lane} {ex : Instr → State → Result}

/-! ### The rows of a publish and of a clear -/

/-- In sequencer state `f` a publish has stored a lane and its EI is still to come (R170). -/
abbrev Publishing (f : FgCode) : Prop := 5 ≤ f.toNat ∧ f.toNat ≤ 8

/-- In sequencer state `f` a clear has stored a lane and its EI is still to come (R170). -/
abbrev Clearing (f : FgCode) : Prop := 12 ≤ f.toNat ∧ f.toNat ≤ 15

theorem programInstr_eq_std_iff : programInstr f = some (.std k) ↔ f.toNat = 4 + k.toNat := by
  revert f k; decide

theorem programInstr_eq_clp_iff : programInstr f = some (.clp k) ↔ f.toNat = 11 + k.toNat := by
  revert f k; decide

theorem programInstr_eq_ei_iff : programInstr f = some .ei ↔ f = 8 ∨ f = 15 := by
  revert f; decide

/-- While a publish or a clear is under way the rows are those of its lane stores and of its EI (R170). -/
theorem not_underWay_of_row (hi : programInstr f = some i) (hstd : ∀ k, i ≠ .std k) (hclp : ∀ k, i ≠ .clp k)
    (hei : i ≠ .ei) : ¬Publishing f ∧ ¬Clearing f := by
  have hall : ∀ f : FgCode, ∀ i ∈ programInstr f, (∀ k, i ≠ .std k) → (∀ k, i ≠ .clp k) → i ≠ .ei →
      ¬Publishing f ∧ ¬Clearing f := by decide
  exact hall f i hi hstd hclp hei

/-- Neither is under way where TE is 1 in a conforming block (R174). -/
theorem not_underWay_of_teAt (h : teAt f = true) : ¬Publishing f ∧ ¬Clearing f := by
  revert f; decide

/-- A row that leads into a publish under way is the STD before it (R170). -/
theorem exists_std_of_fgsAfter (hi : programInstr f = some i) {high : Bool} (h : Publishing (fgsAfter i f high)) :
    ∃ k, i = .std k ∧ (fgsAfter i f high).toNat = 5 + k.toNat := by
  have hall : ∀ f : FgCode, ∀ i ∈ programInstr f, ∀ high, Publishing (fgsAfter i f high) →
      ∃ k, i = .std k ∧ (fgsAfter i f high).toNat = 5 + k.toNat := by decide
  exact hall f i hi high h

/-- Every other row is no STD and does not stand between two of them (R170). -/
theorem not_std_of_fgsAfter (hi : programInstr f = some i) {high : Bool} (hout : ¬Publishing (fgsAfter i f high)) :
    (∀ k, i ≠ .std k) ∧ ¬(5 ≤ f.toNat ∧ f.toNat ≤ 7) := by
  have hall : ∀ f : FgCode, ∀ i ∈ programInstr f, ∀ high, ¬Publishing (fgsAfter i f high) →
      (∀ k, i ≠ .std k) ∧ ¬(5 ≤ f.toNat ∧ f.toNat ≤ 7) := by decide
  exact hall f i hi high hout

/-- A row that leads into a clear under way is the CLP before it (R170). -/
theorem exists_clp_of_fgsAfter (hi : programInstr f = some i) {high : Bool} (h : Clearing (fgsAfter i f high)) :
    ∃ k, i = .clp k ∧ (fgsAfter i f high).toNat = 12 + k.toNat := by
  have hall : ∀ f : FgCode, ∀ i ∈ programInstr f, ∀ high, Clearing (fgsAfter i f high) →
      ∃ k, i = .clp k ∧ (fgsAfter i f high).toNat = 12 + k.toNat := by decide
  exact hall f i hi high h

/-- From MAP to the EI of the publish no row but MAP itself writes STAGE or RAW (R134, R170). -/
theorem map_or_mapped_of_fgsAfter (hi : programInstr f = some i) {high : Bool} (h3 : 3 ≤ (fgsAfter i f high).toNat)
    (h8 : (fgsAfter i f high).toNat ≤ 8) :
    i = .map ∨ i ≠ .map ∧ i ≠ .samp ∧ 3 ≤ f.toNat ∧ f.toNat ≤ 8 := by
  have hall : ∀ f : FgCode, ∀ i ∈ programInstr f, ∀ high, 3 ≤ (fgsAfter i f high).toNat →
      (fgsAfter i f high).toNat ≤ 8 → i = .map ∨ i ≠ .map ∧ i ≠ .samp ∧ 3 ≤ f.toNat ∧ f.toNat ≤ 8 := by decide
  exact hall f i hi high h3 h8

theorem stageAfter_of_ne_map (hi : i ≠ .map) (s : State) : stageAfter i s = s.stage := by
  cases i
  case map => exact absurd rfl hi
  all_goals rfl

theorem pdeltaAfter_of_ne_std (hi : ∀ k, i ≠ .std k) (s : State) : pdeltaAfter i s = s.pdelta := by
  cases i
  case std k => exact absurd rfl (hi k)
  all_goals rfl

theorem exec_raw_of_ne_samp (h : exec i s = .next t) (hi : i ≠ .samp) : t.raw = s.raw := by
  obtain ⟨hsamp, -⟩ | ⟨-, hraw⟩ := exec_raw h
  · exact absurd hsamp hi
  · exact hraw

/-- One more lane stored, in the order of the lanes: the lanes below it stay as they agree. -/
theorem lane_setlane_of_agree {u v : Word} (h : ∀ j : Lane, j.toNat < k.toNat → lane u j = lane v j) (j : Lane)
    (hj : j.toNat < k.toNat + 1) : lane (setlane u k (lane v k)) j = lane v j := by
  rw [lane_setlane]
  split
  · next hjk => rw [hjk]
  · next hjk =>
    have hne : j.toNat ≠ k.toNat := fun e => hjk (BitVec.eq_of_toNat_eq e)
    exact h j (by omega)

/-! ### The four lanes at the EI -/

/-- Before its EI a publish has stored all four lanes (R137). -/
theorem PublishProgress.pdelta_eq (hs : PublishProgress s) (hf : s.fgs = 8) : s.pdelta = s.stage :=
  word_eq_of_lanes fun k => hs (by rw [hf]; decide) (by rw [hf]; decide) k (by rw [hf]; exact k.isLt)

/-- Before its EI a clear has stored all four lanes (R152). -/
theorem ClearProgress.phase_eq (hs : ClearProgress s) (hf : s.fgs = 15) : s.phase = 0 :=
  word_eq_of_lanes fun k => (hs (by rw [hf]; decide) (by rw [hf]; decide) k (by rw [hf]; exact k.isLt)).trans
    (lane_zero k).symm

/-! ### The invariant of the guarded machine -/

namespace GuardedInv

/-- The invariant speaks of no output and of no input of the environment. -/
theorem beginStep (hs : GuardedInv s) (op : Option OpWord) : GuardedInv (beginStep op s) :=
  ⟨hs.wf, hs.guard, hs.sequencer, hs.reading, hs.ticks, hs.stage, hs.publish, hs.clear, hs.pdelta⟩

/-- Nor of TP. -/
theorem setTp (hs : GuardedInv s) (v : Bool) : GuardedInv (s.setTp v) :=
  ⟨hs.wf, hs.guard, hs.sequencer, hs.reading, hs.ticks, hs.stage, hs.publish, hs.clear, hs.pdelta⟩

/-- With TE = 1 neither a publish nor a clear is under way (R174). -/
theorem not_underWay (hs : GuardedInv s) (hte : s.te = true) : ¬Publishing s.fgs ∧ ¬Clearing s.fgs :=
  not_underWay_of_teAt (hs.ticks.symm.trans hte)

/-- A TICK finds no clear under way, and PHASE is all that it writes of what the invariant speaks of. -/
theorem exec_tick (hs : GuardedInv s) (hte : s.te = true) (h : exec .tick s = .next t) : GuardedInv t := by
  rw [Machine.exec_tick hs.wf] at h; cases h
  obtain ⟨-, hclear⟩ := hs.not_underWay hte
  exact ⟨hs.wf, hs.guard, hs.sequencer, hs.reading, hs.ticks, hs.stage, hs.publish,
    fun h12 h15 => absurd ⟨h12, h15⟩ hclear, hs.pdelta⟩

section row

variable (hs : GuardedInv s) (hi : programInstr s.fgs = some i) (h : exec i s = .next t)
include hs hi h

/-- MAP makes STAGE the mapping of RAW, and up to the EI no row changes either (R134). -/
theorem row_stage : StageMapped t := by
  have hfgs := exec_fgs h
  have hcfg := (exec_cfg h).1
  intro h3 h8
  rw [hfgs] at h3 h8
  rw [exec_stage h, hcfg]
  obtain rfl | ⟨hmap, hsamp, h3, h8⟩ := map_or_mapped_of_fgsAfter hi h3 h8
  · rw [exec_raw_of_ne_samp h nofun]
    exact increment_toNat hs.wf hs.reading
  · rw [stageAfter_of_ne_map hmap, exec_raw_of_ne_samp h hsamp]
    exact hs.stage h3 h8

/-- The row that leads into sequencer state 5 + k is STD k, which adds lane k to the lanes stored (R137). -/
theorem row_publish : PublishProgress t := by
  have hfgs := exec_fgs h
  intro h5 h8
  rw [hfgs] at h5 h8
  obtain ⟨k, rfl, hk⟩ := exists_std_of_fgsAfter hi ⟨h5, h8⟩
  have hf := programInstr_eq_std_iff.mp hi
  rw [hfgs, hk, exec_stage h, exec_pdelta h]
  exact fun j hj => lane_setlane_of_agree
    (fun j hj => hs.publish (by omega) (by omega) j (by omega)) j (by omega)

/-- The row that leads into sequencer state 12 + k is CLP k, which adds lane k to the lanes cleared (R152). -/
theorem row_clear : ClearProgress t := by
  have hfgs := exec_fgs h
  intro h12 h15
  rw [hfgs] at h12 h15
  obtain ⟨k, rfl, hk⟩ := exists_clp_of_fgsAfter hi ⟨h12, h15⟩
  have hf := programInstr_eq_clp_iff.mp hi
  rw [hfgs, hk, exec_phase h]
  intro j hj
  have hagree := lane_setlane_of_agree (k := k) (u := s.phase) (v := 0)
    (fun j hj => (hs.clear (by omega) (by omega) j (by omega)).trans (lane_zero j).symm) j (by omega)
  rwa [lane_zero, lane_zero] at hagree

/-- After the last STD the four lanes are those of STAGE, which is the mapping of RAW; every other row that leads out of a
publish leaves PDELTA alone. -/
theorem row_pdelta : PdeltaWhole t := by
  intro hout
  by_cases h8 : t.fgs = 8
  · have hstage := hs.row_stage hi h (by rw [h8]; decide) (by rw [h8]; decide)
    rw [(hs.row_publish hi h).pdelta_eq h8]
    exact .inr ⟨t.raw.toNat, exec_keeps_readingInRange hs.reading h, hstage⟩
  · have hne : t.fgs.toNat ≠ 8 := fun e => h8 (BitVec.eq_of_toNat_eq e)
    have hout' : ¬Publishing t.fgs := fun ⟨h5, hle⟩ => hout ⟨h5, by omega⟩
    rw [exec_fgs h] at hout'
    obtain ⟨hstd, hf⟩ := not_std_of_fgsAfter hi hout'
    rw [exec_pdelta h, pdeltaAfter_of_ne_std hstd, (exec_cfg h).1]
    exact hs.pdelta hf

end row

/-- Every step keeps the invariant: what it says of configuration, FGS, RAW and TE by the lemmas on these, and what it says
of STAGE, PDELTA and PHASE row by row, a TICK and the environment's events writing none of it. -/
theorem step (hs : GuardedInv s) (h : step s = .next t) : GuardedInv t := by
  have hcfg := step_cfg h
  obtain ⟨hw, ⟨-, -, rfl⟩ | ⟨-, rfl⟩ | ⟨-, w, i, hn, hd, hex⟩⟩ := stepWith_cases h
  · exact (hs.beginStep none).setTp true
  · exact guardedInv_init hw hs.guard _
  · have hs' := hs.beginStep (some w)
    obtain ⟨hdue, -, rfl⟩ | ⟨-, hi, -⟩ := nextWord_cases hn hd
    · exact hs'.exec_tick (tickDue_iff.mp hdue).1 hex
    · exact ⟨hcfg ▸ hw, hcfg ▸ hs.guard, step_keeps_sequencerLegal hs.sequencer h,
        exec_keeps_readingInRange hs'.reading hex, step_keeps_ticksAsProgrammed hs.guard hs.ticks h,
        hs'.row_stage hi hex, hs'.row_publish hi hex, hs'.row_clear hi hex, hs'.row_pdelta hi hex⟩

end GuardedInv

/-! ### The environment's events -/

theorem stepWith_timer (hw : s.cfg.wf = true) (ht : turnOf s = .timer) :
    stepWith ex s = timerEvent (beginStep none s) := by
  simp [stepWith, configured_wf hw, ht]

theorem stepWith_blockReset (hw : s.cfg.wf = true) (ht : turnOf s = .blockReset) :
    stepWith ex s = .next (State.init s.cfg (popTurn s.env)) := by
  simp [stepWith, configured_wf hw, ht, blockReset]

/-! ### The machine with two atomic operations -/

/-- What the EI of the atomic machine performs before it leaves the critical section: the whole publish at the end of a
publish, the whole clear at the end of a clear (R222). -/
def commit (a : State) : State := if a.fgs = 8 then a.setPdelta a.stage else if a.fgs = 15 then a.setPhase 0 else a

theorem atomicExec_ei (a : State) : atomicExec .ei a = exec .ei (commit a) := rfl

theorem atomicExec_std (hw : a.cfg.wf = true) (k : Lane) : atomicExec (.std k) a = .next (advance a) :=
  configured_wf hw _

theorem atomicExec_clp (hw : a.cfg.wf = true) (k : Lane) : atomicExec (.clp k) a = .next (advance a) :=
  configured_wf hw _

namespace Refines

theorem refl (s : State) : Refines s s := ⟨rfl, fun _ => rfl, fun _ => rfl⟩

section

variable (hr : Refines s a)
include hr

theorem cfg_eq : s.cfg = a.cfg := by rw [hr.rest]
theorem stage_eq : s.stage = a.stage := by rw [hr.rest]
theorem fgs_eq : s.fgs = a.fgs := by rw [hr.rest]
theorem tp_eq : s.tp = a.tp := by rw [hr.rest]
theorem trace_eq : s.trace = a.trace := by rw [hr.rest]
theorem env_eq : s.env = a.env := by rw [hr.rest]

/-- The environment and the dispatch read nothing in which the two states may differ. -/
theorem turnOf_eq : turnOf s = turnOf a := by rw [hr.rest]; rfl
theorem nextWord_eq : nextWord s = nextWord a := by rw [hr.rest]; rfl

theorem beginStep (op : Option OpWord) : Refines (beginStep op s) (beginStep op a) :=
  ⟨congrArg (Machine.beginStep op) hr.rest, hr.pdelta, hr.phase⟩

theorem setTp (v : Bool) : Refines (s.setTp v) (a.setTp v) :=
  ⟨congrArg (State.setTp · v) hr.rest, hr.pdelta, hr.phase⟩

/-- Two states are equal that agree in PDELTA and PHASE as well. -/
theorem eq_of_shared (hpdelta : s.pdelta = a.pdelta) (hphase : s.phase = a.phase) : s = a := by
  rw [hr.rest, hpdelta, hphase]

theorem eq_of_not_underWay (h : ¬Publishing s.fgs ∧ ¬Clearing s.fgs) : s = a :=
  hr.eq_of_shared (hr.pdelta h.1) (hr.phase h.2)

/-- A lane of PDELTA stored on one side alone, with the publish under way after it. -/
theorem setPdelta_advance (v : Word) (h : 4 ≤ s.fgs.toNat) (h' : s.fgs.toNat ≤ 7) :
    Refines (advance (s.setPdelta v)) (advance a) where
  rest := congrArg (fun u => advance (u.setPdelta v)) hr.rest
  pdelta hout := absurd (show Publishing (s.fgs + 1) by constructor <;> bv_omega) hout
  phase _ := hr.phase (by omega)

/-- A lane of PHASE stored on one side alone, with the clear under way after it. -/
theorem setPhase_advance (v : Word) (h : 11 ≤ s.fgs.toNat) (h' : s.fgs.toNat ≤ 14) :
    Refines (advance (s.setPhase v)) (advance a) where
  rest := congrArg (fun u => advance (u.setPhase v)) hr.rest
  pdelta _ := hr.pdelta (by omega)
  phase hout := absurd (show Clearing (s.fgs + 1) by constructor <;> bv_omega) hout

end

end Refines

namespace GuardedInv

section

variable (hs : GuardedInv s) (hr : Refines s a)
include hs hr

/-- At the EI the lanes stored one by one are what the atomic machine stores at once (R62, R222). -/
theorem eq_commit (hi : programInstr s.fgs = some .ei) : s = commit a := by
  obtain h8 | h15 := programInstr_eq_ei_iff.mp hi
  · have hcommit : commit a = a.setPdelta a.stage := if_pos (hr.fgs_eq ▸ h8)
    have hpdelta : s.pdelta = a.stage := (hs.publish.pdelta_eq h8).trans hr.stage_eq
    have hphase : s.phase = a.phase := hr.phase (by rw [h8]; decide)
    rw [hcommit, hr.rest, hpdelta, hphase]
    rfl
  · have hf : a.fgs = 15 := hr.fgs_eq ▸ h15
    have hcommit : commit a = a.setPhase 0 := by rw [commit, if_neg (by rw [hf]; decide), if_pos hf]
    have hpdelta : s.pdelta = a.pdelta := hr.pdelta (by rw [h15]; decide)
    have hphase : s.phase = 0 := hs.clear.phase_eq h15
    rw [hcommit, hr.rest, hpdelta, hphase]
    rfl

/-- A row of the program on one side is matched by the same row on the other: a lane store by a step that only advances
FGS, the EI by the atomic store, every other row by itself. -/
theorem row_refines (hi : programInstr s.fgs = some i) (h : exec i s = .next t) :
    ∃ b, atomicExec i a = .next b ∧ Refines t b := by
  have hwa : a.cfg.wf = true := hr.cfg_eq ▸ hs.wf
  cases i
  case std k =>
    rw [exec_std hs.wf] at h; cases h
    have hf := programInstr_eq_std_iff.mp hi
    exact ⟨_, atomicExec_std hwa k, hr.setPdelta_advance _ (by omega) (by omega)⟩
  case clp k =>
    rw [exec_clp hs.wf] at h; cases h
    have hf := programInstr_eq_clp_iff.mp hi
    exact ⟨_, atomicExec_clp hwa k, hr.setPhase_advance _ (by omega) (by omega)⟩
  case ei =>
    rw [hs.eq_commit hr hi] at h
    exact ⟨t, (atomicExec_ei a).trans h, .refl t⟩
  all_goals
    obtain rfl := hr.eq_of_not_underWay (not_underWay_of_row hi nofun nofun nofun)
    exact ⟨t, h, .refl t⟩

/-- A step of the guarded machine is matched by a step of the atomic one in the same environment (R222). -/
theorem step_refines (h : Machine.step s = .next t) : ∃ b, atomicStep a = .next b ∧ Refines t b := by
  have hwa : a.cfg.wf = true := hr.cfg_eq ▸ hs.wf
  obtain ⟨-, ⟨ht, htp, rfl⟩ | ⟨ht, rfl⟩ | ⟨ht, w, i, hn, hd, hex⟩⟩ := stepWith_cases h <;> rw [hr.turnOf_eq] at ht
  · exact ⟨_, (stepWith_timer hwa ht).trans (timerEvent_idle (hr.tp_eq ▸ htp)), (hr.beginStep none).setTp true⟩
  · refine ⟨_, stepWith_blockReset hwa ht, ?_⟩
    rw [hr.cfg_eq, hr.env_eq]
    exact .refl _
  · have hstep : atomicStep a = atomicExec i (Machine.beginStep (some w) a) :=
      (stepWith_run hwa ht).trans (blockStep_eq (hr.nextWord_eq ▸ hn) hd)
    have hr' := hr.beginStep (some w)
    rw [hstep]
    obtain ⟨hdue, -, rfl⟩ | ⟨-, hi, -⟩ := nextWord_cases hn hd
    · rw [hr'.eq_of_not_underWay (hs.not_underWay (tickDue_iff.mp hdue).1)] at hex
      exact ⟨t, hex, .refl t⟩
    · exact (hs.beginStep (some w)).row_refines hr' hi hex

end

/-- Step by step, any number of steps is matched by as many. -/
theorem runSteps_refines {n : Nat} (hs : GuardedInv s) (hr : Refines s a) (h : runSteps Machine.step n s = .next t) :
    ∃ b, runSteps atomicStep n a = .next b ∧ Refines t b := by
  induction n generalizing s a with
  | zero => cases h; exact ⟨a, rfl, hr⟩
  | succ n ih =>
    obtain ⟨u, hu, h⟩ := andThen_eq_next.mp h
    obtain ⟨b, hb, hrb⟩ := hs.step_refines hr hu
    obtain ⟨c, hc, hrc⟩ := ih (hs.step hu) hrb h
    exact ⟨c, andThen_eq_next.mpr ⟨b, hb, hc⟩, hrc⟩

end GuardedInv

end Sys2Proof.Machine

namespace Sys2Proof.Proofs

open Sys2Proof Sys2Proof.Machine

/-- Settles O57. -/
theorem guardedInvariantIsKept : Obligations.GuardedInvariantIsKept :=
  fun _ _ hs => hs.step

/-- Settles O58: a TICK is performed with TE = 1, and so outside a publish. -/
theorem guardedTickReadsAWholeIncrement : Obligations.GuardedTickReadsAWholeIncrement := by
  intro s t hs h htick
  obtain ⟨-, hdue⟩ := (step_opId_tickWord_iff h).mp htick
  obtain ⟨hout, -⟩ := hs.not_underWay (tickDue_iff.mp hdue).1
  exact hs.pdelta fun ⟨h5, h7⟩ => hout ⟨h5, h7.trans (by decide)⟩

/-- Settles O59. -/
theorem guardedMachineRefinesAtomicMachine : Obligations.GuardedMachineRefinesAtomicMachine :=
  fun _ _ _ hs hr => hs.step_refines hr

/-- Settles O60: the relation holds at reset, is kept by every step and includes the output trace. -/
theorem guardedTracesAreAtomicTraces : Obligations.GuardedTracesAreAtomicTraces := by
  intro c e n s hw hg h
  obtain ⟨a, ha, hr⟩ := (guardedInv_init hw hg e).runSteps_refines (.refl _) h
  exact ⟨a, ha, hr.trace_eq.symm⟩

end Sys2Proof.Proofs
end

section
/-! SUPPORT. Reset and hazards (70_reset_and_hazards.md): the first steps after reset (R211), the output before the first
publish (R213), a publish or a clear that is cut short, and the torn increment of the variant without the guard (R224). -/

namespace Sys2Proof.Machine

open Sys2Proof

variable {s t : State} {k : Lane}

/-! ### START and the first steps -/

/-- In the state after reset the block performs START, which enables ticks (R160, R211). -/
theorem step_start (hw : s.cfg.wf = true) (ht : turnOf s = .run) (hf : s.fgs = 0) (hte : s.te = false) :
    step s = .next (goTo 1 (enableTicks (beginStep (some 0x00) s))) := by
  have hdue : tickDue s = false := tickDue_eq_false_iff.mpr (by simp [hte])
  have hi : programInstr s.fgs = some .start := by rw [hf]; rfl
  exact (step_program hw ht hdue hi).trans (exec_start hw)

theorem runSteps_succ {g : State → Result} (n : Nat) (h : g s = .next t) : runSteps g (n + 1) s = runSteps g n t := by
  rw [runSteps, h, andThen_next]

/-! ### Silence -/

/-- From PHASE = 0 and PDELTA = 0 nothing is added and nothing is wrapped (R111, R213). -/
theorem tickPhase_of_zero (hw : s.cfg.wf = true) (hphase : s.phase = 0) (hpdelta : s.pdelta = 0) : tickPhase s = 0 := by
  have hrange : PhaseInRange s := by
    rw [phaseInRange_iff, hphase]
    exact Nat.mul_pos (Config.wf.N_pos hw) (by decide)
  rw [tickPhase_of_pdelta_eq_zero hrange hpdelta, hphase]

theorem quadIndex_zero {c : Config} (hw : c.wf = true) : quadIndex c 0 = c.N / 4 := by
  rw [quadIndex, Nat.zero_add, Nat.mod_eq_of_lt (quarter_lt (Config.wf.N_pos hw)), quarter]

/-! ### Some of the lanes -/

/-- The `n` lanes from lane `m` on, in their order. -/
def lanesFrom (m n : Nat) : List Lane := (List.range n).map fun x => BitVec.ofNat 2 (m + x)

theorem mem_lanesFrom {m n : Nat} (h : m + n ≤ 4) : k ∈ lanesFrom m n ↔ m ≤ k.toNat ∧ k.toNat < m + n := by
  simp only [lanesFrom, List.mem_map, List.mem_range]
  constructor
  · rintro ⟨x, hx, rfl⟩
    rw [BitVec.toNat_ofNat]
    omega
  · rintro ⟨hle, hlt⟩
    exact ⟨k.toNat - m, by omega, BitVec.eq_of_toNat_eq (by rw [BitVec.toNat_ofNat]; omega)⟩

/-- The operations of `g` on these lanes, written with the numbers of the lanes. -/
theorem map_lanesFrom (g : Lane → Instr) (m n : Nat) :
    (lanesFrom m n).map g = (List.range n).map fun x => g (BitVec.ofNat 2 (m + x)) := List.map_map

/-- CLPs of the lanes `m` to `m + n - 1` complete and clear those lanes of PHASE alone (R152, R224). -/
theorem execSeq_clps_lanesFrom (hw : s.cfg.wf = true) {m n : Nat} (h : m + n ≤ 4) :
    ∃ t, execSeq ((List.range n).map fun x => .clp (BitVec.ofNat 2 (m + x))) s = .next t ∧ t.cfg = s.cfg ∧
      ∀ k, lane t.phase k = if m ≤ k.toNat ∧ k.toNat < m + n then 0 else lane s.phase k := by
  rw [← map_lanesFrom]
  refine ⟨_, execSeq_clps hw (lanesFrom m n), rfl, fun k => ?_⟩
  rw [lane_copyLanes, lane_zero]
  exact if_congr (mem_lanesFrom h) rfl rfl

/-- What every operation keeps is kept by any sequence of them. -/
theorem execSeq_keeps {P : State → Prop} (hexec : ∀ i s t, P s → exec i s = .next t → P t) {is : List Instr}
    (hs : P s) (h : execSeq is s = .next t) : P t := by
  induction is generalizing s with
  | nil => cases h; exact hs
  | cons i is ih =>
    obtain ⟨u, hu, h⟩ := andThen_eq_next.mp h
    exact ih (hexec i s u hs hu) h

theorem execSeq_keeps_phaseInRange {is : List Instr} (hs : PhaseInRange s) (h : execSeq is s = .next t) :
    PhaseInRange t :=
  execSeq_keeps (fun _ _ _ => exec_keeps_phaseInRange) hs h

/-! ### A torn increment -/

/-- A value below the mapping of 0 that is not 0 is no whole increment, because the mapping never decreases (R136). -/
theorem not_wholeIncrement_of_lt {c : Config} {v : Word} (h0 : v ≠ 0) (hlt : v.toNat < fmap c 0) :
    ¬WholeIncrement c v := by
  rintro (hzero | ⟨r, -, hr⟩)
  · exact h0 hzero
  · have := fmap_mono c (Nat.zero_le r)
    omega

/-- The default configuration in the variant `FG_GUARD = 0` (R164). -/
def unguarded : Config := { Config.default with fgGuard := false }

/-- START, one reading, 228, its MAP, DI and STD 0; then a timer event, and the block's turn again. -/
def tearingEnv : Env where
  turns := [.run, .run, .run, .run, .run, .timer, .run]
  readings := [228]
  levels := []
  draws := 0

/-- Six steps later: lane 0 of the increment 0x000100D5 is stored, and a tick is due. -/
def tornState : State :=
  { State.init unguarded { Env.empty with turns := [.run] } with
    stage := 0x000100D5, pdelta := 0x000000D5, raw := 228, te := true, tp := true, fgs := 5 }

theorem runSteps_tearing : runSteps step 6 (State.init unguarded tearingEnv) = .next tornState :=
  rfl

end Sys2Proof.Machine

namespace Sys2Proof.Proofs

open Sys2Proof Sys2Proof.Machine

/-- Settles O2. -/
theorem blockResetGivesResetValues : Obligations.BlockResetGivesResetValues :=
  fun _ hw ht => ⟨_, stepWith_blockReset hw ht, rfl, rfl, rfl, rfl, rfl, rfl, rfl, rfl, rfl, rfl, rfl⟩

/-- Settles O15: with TE = 0 the pending tick waits for START, which enables it. -/
theorem startIsTheFirstStep : Obligations.StartIsTheFirstStep := by
  intro c e hw
  refine ⟨fun ht => ⟨_, step_start hw ht rfl rfl, rfl, rfl, rfl⟩, fun rest hturns => ?_⟩
  have htimer := (step_timer (s := State.init c e) hw (turnOf_of_turns hturns)).trans (timerEvent_idle rfl)
  have hturns₁ := popTurn_turns hturns
  have hstart := step_start (s := (beginStep none (State.init c e)).setTp true) hw (turnOf_of_turns hturns₁) rfl rfl
  have htick := (step_tickDue
    (s := goTo 1 (enableTicks (beginStep (some 0x00) ((beginStep none (State.init c e)).setTp true))))
    hw (turnOf_of_turns (popTurn_turns hturns₁)) rfl).trans (exec_tick hw)
  exact ⟨_, (runSteps_succ 2 htimer).trans ((runSteps_succ 1 hstart).trans (runSteps_succ 0 htick)), rfl, rfl, rfl⟩

/-- Settles O35: the phase stays at 0, so the indices are 0 and the quarter of the table. -/
theorem silenceBeforeTheFirstPublish : Obligations.SilenceBeforeTheFirstPublish := by
  intro s hw hphase hpdelta
  have htick := tickPhase_of_zero hw hphase hpdelta
  have hA : tickIdxA s = 0 := by rw [tickIdxA, htick]; rfl
  have hB : tickIdxB s = s.cfg.N / 4 := by rw [tickIdxB, hA, quadIndex_zero hw]
  refine ⟨_, _, _, exec_tick hw, htick, hpdelta, widen_toNat _, widen_toNat _, ?_⟩
  rw [tickWrites_eq_cons, hA, hB]

/-- Settles O40. -/
theorem partialPublishIsALaneMixture : Obligations.PartialPublishIsALaneMixture := by
  intro j s hw hj
  have hstds := execSeq_stds hw (lanesFrom 0 j)
  simp only [map_lanesFrom, Nat.zero_add] at hstds
  refine ⟨_, hstds, fun k => ?_, rfl⟩
  have hmem := mem_lanesFrom (m := 0) (n := j) (k := k) (by omega)
  rw [lane_copyLanes]
  exact if_congr (by rw [hmem]; omega) rfl rfl

/-- Settles O41: the CLPs before the TICK clear the lanes below `j`, those after it the others, and none of them takes PHASE
out of range. -/
theorem tickInsideAClearPartlyUndoesIt : Obligations.TickInsideAClearPartlyUndoesIt := by
  intro j s hw hs _ hj
  obtain ⟨t, ht, htcfg, htphase⟩ := execSeq_clps_lanesFrom (m := 0) (n := j) hw (by omega)
  obtain ⟨u, hu⟩ := exec_completes_of_ne_samp (s := t) (i := .tick) (htcfg ▸ hw) nofun
  have hucfg := (exec_cfg hu).1
  obtain ⟨v, hv, -, hvphase⟩ := execSeq_clps_lanesFrom (s := u) (m := j) (n := 4 - j) (hucfg ▸ htcfg ▸ hw) (by omega)
  have hrange := exec_keeps_phaseInRange (execSeq_keeps_phaseInRange hs ht) hu
  refine ⟨t, u, v, ?_, hu, hv, fun k => ?_, fun k => ?_, execSeq_keeps_phaseInRange hrange hv⟩
  · simpa only [Nat.zero_add] using ht
  · rw [htphase]
    exact if_congr (by omega) rfl rfl
  · have hk := k.isLt
    rw [hvphase, ← ite_not]
    exact if_congr (by omega) rfl rfl

/-- Settles O42: a run of six steps leaves the low lane of the mapping of 228 in PDELTA, which is below the mapping of 0. -/
theorem unguardedTickCanReadATornIncrement : Obligations.UnguardedTickCanReadATornIncrement :=
  ⟨unguarded, tearingEnv, 6, tornState, _, by decide, rfl, runSteps_tearing,
    (step_tickDue (by decide) rfl rfl).trans (exec_tick (by decide)), rfl,
    not_wholeIncrement_of_lt (by decide) (by decide)⟩

end Sys2Proof.Proofs
end
